-- ==== Sys2Proof/Word.lean ====
section
/-! DEFINITION. The word types of the FG24 (00_scope.md section 1.6): words of 32 bits, 24-bit byte addresses,
and the two floating-point formats as bit patterns. -/
namespace Sys2Proof

/-- A word of 32 bits (section 1.6). -/
abbrev Word := BitVec 32

/-- A byte address of the 16 MiB sample memory: 24 bits (section 1.6). -/
abbrev Addr := BitVec 24

/-- A binary32 value, as its bit pattern (section 1.6, R88). -/
abbrev F32 := BitVec 32

/-- A binary64 value, as its bit pattern (section 1.6, R88). -/
abbrev F64 := BitVec 64

end Sys2Proof
end

