-- ==== Sys2Proof/Syntax.lean ====
section
/-! DEFINITION. The commands of the FG24: one constructor per row of spec/opcode_table.json, with what the outside
decides as its operands. -/
namespace Sys2Proof

/-- Size of a station-bus READ or WRITE, and of a memory access (Table 1-4, R5). -/
inductive Size where
  | byte | half | word
deriving DecidableEq, Repr

/-- What memory signals for one word of an access (R5): DONE, RETRY, FAULT, or RETRY and FAULT together. -/
inductive Answer where
  | done | retry | fault | retryFault
deriving DecidableEq, Repr

/-- One response of memory: its answer and, for a read that is DONE, the data. -/
structure Response where
  answer : Answer
  data   : Word
deriving DecidableEq, Repr

/-- The commands. -/
inductive Instr where
  /-- R24: power-on reset, with the levels of the four base straps and the three tag straps. -/
  | powerOnReset (baseStraps : BitVec 4) (tagStraps : BitVec 3)
  /-- R25: bus reset. `provingFirst` settles the order R160 leaves to the Publisher. -/
  | busReset (provingFirst : Bool)
  | read (tag : Fin 8) (addr : Addr) (size : Size)
  | write (tag : Fin 8) (addr : Addr) (size : Size) (data : Word)
  | pairRead (tag : Fin 8) (addr : Addr)
  | pairWrite (tag : Fin 8) (addr : Addr) (data0 data1 : Word)
  | lockRead (tag : Fin 8) (addr : Addr)
  | lockWrite (tag : Fin 8) (addr : Addr) (data : Word)
  | vectorRead (tag : Fin 8) (addr : Addr)
  | portGrant
  | passThroughResponse (first second : Response)
  | fetchAccessResponse (first second : Response)
  | heldWriteResponse (r : Response)
  | lockedWriteResponse (r : Response)
  | ownAccessResponse (first second : Response)
  | windowPeriodExpiry
  | queuePlaceGiven
  | takeFrameItem
  | takeWindowCloseMarker
  | clearTotals
  | ackConditions
  | startProving
  | endProving
  | reloadImage
  | resyncDigest
  | armCapture
  | clearFaults
  | resetSegment
  | unknownCommand
  | millisecondCountAdvance
deriving DecidableEq, Repr

end Sys2Proof
end

