-- ==== Sys2Proof/WellFormed.lean ====
section
/-! DEFINITION. Which commands the station bus carries: a half access uses an even address, a word access a multiple
of 4, and a pair's first word is word-aligned (01_the_memory_path.md, below Table 1-4). -/
namespace Sys2Proof

/-- The address fits the size. -/
def aligned (size : Size) (addr : Addr) : Bool :=
  match size with
  | .byte => true
  | .half => addr.toNat % 2 == 0
  | .word => addr.toNat % 4 == 0

/-- The command can be placed. The address of a VECTOR READ carries no meaning, so any address will do. -/
def Instr.wellFormed : Instr → Bool
  | .read _ addr size => aligned size addr
  | .write _ addr size _ => aligned size addr
  | .pairRead _ addr => aligned .word addr
  | .pairWrite _ addr _ _ => aligned .word addr
  | .lockRead _ addr => aligned .word addr
  | .lockWrite _ addr _ => aligned .word addr
  | .powerOnReset _ _ | .busReset _ | .vectorRead _ _ | .portGrant | .passThroughResponse _ _
  | .fetchAccessResponse _ _ | .heldWriteResponse _ | .lockedWriteResponse _ | .ownAccessResponse _ _
  | .windowPeriodExpiry | .queuePlaceGiven | .takeFrameItem | .takeWindowCloseMarker | .clearTotals
  | .ackConditions | .startProving | .endProving | .reloadImage | .resyncDigest | .armCapture | .clearFaults
  | .resetSegment | .unknownCommand | .millisecondCountAdvance => true

end Sys2Proof
end

