-- ==== Sys2Proof/Config.lean ====
section
/-! DEFINITION. The numbers the spec fixes for the part: queue sizes, thresholds, attempts, offsets. The spec leaves no
value open that a step computes with, so there is no free value here. -/
namespace Sys2Proof.Config

/-- Places of the own-access queue (R162). -/
def ownQueuePlaces : Nat := 32

/-- Items of any kind at which a frame or command offer is refused (R109). -/
def workQueueRefuse : Nat := 15

/-- Own-access occupancy at which yield turns on (R18). -/
def yieldOn : Nat := 24

/-- Own-access occupancy at which yield turns off (R18). -/
def yieldOff : Nat := 8

/-- Attempts in all for one access (R12, R13, R16, R20). -/
def attempts : Nat := 8

/-- Entry positions of an image reload (R41). -/
def reloadItems : Nat := 138

/-- Offset of the digest ring (R4). -/
def digestOffset : Nat := 0x4000

/-- Offset of the outbound ring (R4). -/
def outboundOffset : Nat := 0x2000

/-- Offset of command slot 0 (R180). -/
def slotOffset : Nat := 0x1400

end Sys2Proof.Config
end

