-- ==== Sys2Proof/Machine/State.lean ====
section
/-! DEFINITION. The state of the FG24, block by block as Table 1-1 lists them, as plain data, and its value right after
power-on reset. -/
namespace Sys2Proof.Machine

/-- No rule of the spec stops the part: every refusal and failure of its own is an effect on State. Nothing raises a
fault (safe: nothing is claimed of one). -/
inductive Fault where
deriving DecidableEq, Repr

/-- Why a command is refused by the model. -/
inductive Refusal where
  /-- Raised by an arm of Dispatch whose command has no meaning yet. Safe: nothing is claimed of such a command. -/
  | notModelled (mnemonic : String)
  /-- Raised by a station-bus transaction whose address does not fit its size. The station bus does not carry such a
  transaction (below Table 1-4). Safe: the model stops where the spec says nothing. -/
  | misaligned
deriving DecidableEq, Repr

/-! ### Codes and names (Table 11-1) -/

/-- Codes of the conditions, kinds and sticky flags are bit positions; these are the sets with one member. -/
def condStale : BitVec 8 := 0x40#8
def condArith : BitVec 8 := 0x80#8
/-- The six lookup conditions DEPOSIT, DENSE, DILUTE, REVERSE, RANGE, SUSPECT (section 6.4). -/
def lookupConditions : BitVec 8 := 0x3F#8

def segLoss : BitVec 3 := 1#3
def segGain : BitVec 3 := 2#3
def segGap : BitVec 3 := 4#3

def stickyCvClamped : BitVec 8 := 0x20#8
def stickyNanSkipped : BitVec 8 := 0x40#8
def stickyTimeGap : BitVec 8 := 0x80#8

/-- A set of the five exception kinds (R90, Table 11-1). -/
abbrev Kinds := BitVec 5

def kInvalid : Kinds := 1#5
def kDenormal : Kinds := 2#5
def kOverflow : Kinds := 4#5
def kUnderflow : Kinds := 8#5
def kInexact : Kinds := 16#5

inductive Role where
  | velocity | density | pressure | summary
deriving DecidableEq, Repr

inductive Disposition where
  | process | passOnly | relay | processAndRelay
deriving DecidableEq, Repr

inductive StoreForm where
  | raw | converted
deriving DecidableEq, Repr

inductive CaptureMode where
  | none | next | every
deriving DecidableEq, Repr

inductive CondMode where
  | none | raise | clear | replace | replaceHold
deriving DecidableEq, Repr

inductive InputForm where
  | signed | unsigned | float
deriving DecidableEq, Repr

inductive Quantity where
  | roleValue | velocity | density | concentration | flowRate | solidsRate | pressure
deriving DecidableEq, Repr

inductive Basis where
  | volume | solids
deriving DecidableEq, Repr

/-- Where a segment's inflow comes from (Table 7-2). -/
inductive Source where
  | point (p : Fin 16)
  | slot (r : Fin 8)
deriving DecidableEq, Repr

/-- The six interrupt causes (Table 10-3). -/
inductive Cause where
  | fault | condition | matched | digest | proving | command
deriving DecidableEq, Repr

/-- Access fault reasons (Table 1-6). -/
inductive FaultReason where
  | ownedWrite | controlFromOtherMaster | subwordControl | lockedControl | lockBroken | invalidEntry
  | provingProtected | ownAccessFailed | ringBusy
deriving DecidableEq, Repr

/-- The kinds an access fault record can hold (Table 11-1): transactions, and kinds of own items. -/
inductive FaultKind where
  | read | write | pairRead | pairWrite | lockRead | lockWrite | vectorRead
  | publish | digest | outbound | status | fetch
deriving DecidableEq, Repr

/-- Reasons of a status word (Table 10-2, Table 11-1). -/
inductive StatusReason where
  | none | unknownCommand | badTarget | busy | notOwner | notRunning | provingActive | disabled | reset
deriving DecidableEq, Repr

/-- Kinds of digest record (Table 9-2). -/
inductive DigestKind where
  | capture | condition | fault | proving | restart
deriving DecidableEq, Repr

/-- Steps of the arithmetic (R91). -/
inductive ArithStep where
  | conversion | flow | concentration | solidsRate | integration | summary
deriving DecidableEq, Repr

/-- Completion codes (R2). -/
inductive Code where
  | done | doneFirst | retry | yield | fault
deriving DecidableEq, Repr

/-! ### Configuration entries (Chapter 2, Chapter 11) -/

/-- A loaded copy (section 2.2): the generation of the commit that loaded or unloaded it, and its fields; `none` is
UNLOADED. -/
structure Loaded (α : Type) where
  generation : BitVec 8
  entry : Option α
deriving DecidableEq, Repr

/-- The 138 entry positions of Table 2-1. -/
inductive EntryPos where
  | globalSettings
  | band
  | checker (i : Fin 8)
  | conversion (i : Fin 32)
  | point (p : Fin 16)
  | segment (g : Fin 8)
  | slot (r : Fin 8)
  | classification (e : Fin 64)
deriving DecidableEq, Repr

structure SampleWindow where
  enable : Bool
  base : Word
  length : Word
deriving DecidableEq, Repr

/-- The fields of Table 2-4. -/
structure GlobalSettings where
  enable : Bool
  windows : Vector SampleWindow 4
  period : BitVec 16
  ringSize : Nat
  threshold : Nat
  vectorBase : BitVec 8
  causeEnable : BitVec 6
  potency : Kinds
  stationId : BitVec 5
  hopLimit : BitVec 3
deriving DecidableEq, Repr

/-- The values in effect while no global settings entry is loaded (Table 2-4); the timer is then stopped, so the period
is never read. -/
def GlobalSettings.unloaded : GlobalSettings where
  enable := false
  windows := Vector.replicate 4 ⟨false, 0, 0⟩
  period := 0
  ringSize := 16
  threshold := 16
  vectorBase := 0
  causeEnable := 0
  potency := kInvalid ||| kOverflow
  stationId := 0
  hopLimit := 1

structure Band where
  thresholds : Vector F32 7
deriving DecidableEq, Repr

structure RangeChecker where
  quantity : Quantity
  low : F32
  high : F32
deriving DecidableEq, Repr

/-- R92. -/
structure Conversion where
  form : InputForm
  root : Bool
  scale : F32
  offset : F32
  coefficient : F32
deriving DecidableEq, Repr

/-- R113. -/
structure PointEntry where
  enable : Bool
  area : F32
  water : F32
  solids : F32
  pairingLimit : Word
  gapLimit : Word
  staleLimit : BitVec 8
  exportFlag : Bool
deriving DecidableEq, Repr

/-- Table 7-2. -/
structure SegmentEntry where
  enable : Bool
  inflow : Source
  outflow : Fin 16
  basis : Basis
  lag : Nat
  span : Nat
  threshold : F32
  clearLevel : F32
  persistence : Nat
deriving DecidableEq, Repr

/-- Section 7.1. -/
structure SlotEntry where
  enable : Bool
  expectedStation : BitVec 5
deriving DecidableEq, Repr

/-- Table 4-2, FIRST: a value and a mask for each key field. -/
structure FirstKey where
  tagValue : BitVec 3
  tagMask : BitVec 3
  windowValue : BitVec 2
  windowMask : BitVec 2
  channelValue : BitVec 5
  channelMask : BitVec 5
  kindValue : BitVec 4
  kindMask : BitVec 4
  qualityValue : BitVec 4
  qualityMask : BitVec 4
deriving DecidableEq, Repr

/-- Table 4-3. -/
structure FirstAction where
  disposition : Disposition
  target : Fin 16
  role : Role
  conversion : Fin 32
  store : StoreForm
  counter : Option (Fin 32)
  capture : CaptureMode
deriving DecidableEq, Repr

/-- Table 4-2, SECOND. -/
structure SecondKey where
  pointValue : BitVec 4
  pointMask : BitVec 4
  roleValue : BitVec 2
  roleMask : BitVec 2
  rangeValue : BitVec 8
  rangeMask : BitVec 8
  bandValue : BitVec 7
  bandMask : BitVec 7
  availableValue : BitVec 1
  availableMask : BitVec 1
  conditionValue : BitVec 8
  conditionMask : BitVec 8
  qualityValue : BitVec 4
  qualityMask : BitVec 4
deriving DecidableEq, Repr

/-- Table 4-6. -/
structure SecondAction where
  mode : CondMode
  operand : BitVec 8
  accumulate : Bool
  counter : Option (Fin 32)
  capture : CaptureMode
  matchInterrupt : Bool
deriving DecidableEq, Repr

/-- Table 4-1. -/
inductive ClassEntry where
  | first (key : FirstKey) (action : FirstAction)
  | second (key : SecondKey) (action : SecondAction)
deriving DecidableEq, Repr

/-! ### Frames (Chapter 3) -/

/-- The result of a first lookup that matched (R66). -/
structure LookupResult where
  index : Fin 64
  generation : BitVec 8
  action : FirstAction
deriving DecidableEq, Repr

/-- An OPEN assembly record (R47). -/
structure OpenFrame where
  address : Addr
  window : Fin 4
  kind : BitVec 4
  length : Nat
  next : Nat
  received : List Word
  storedHead : Word
  storedValue : Option Word
  lookup : Option LookupResult
  converted : Option F64
  carried : Kinds
deriving DecidableEq, Repr

/-- A frame item (R58): the received words without the check word hold the head fields, the time stamp, the raw value
word and the summary fields. -/
structure FrameItem where
  tag : Fin 8
  window : Fin 4
  received : List Word
  value : Option F64
  lookup : Option LookupResult
  carried : Kinds
deriving DecidableEq, Repr

/-- A command item (R108): slot, command word and argument words 0-5. -/
structure CommandItem where
  slot : Fin 8
  word : Word
  args : List Word
deriving DecidableEq, Repr

/-- Items of the work queue (R108). -/
inductive WorkItem where
  | frame (f : FrameItem)
  | command (c : CommandItem)
  | marker
deriving DecidableEq, Repr

/-! ### The Path Controller (Chapter 1) -/

inductive TxnKind where
  | read | write | pairRead | pairWrite | lockRead | lockWrite | vectorRead
deriving DecidableEq, Repr

/-- A station-bus transaction (R1). -/
structure Transaction where
  tag : Fin 8
  kind : TxnKind
  addr : Addr
  size : Size
  data0 : Word
  data1 : Word
deriving DecidableEq, Repr

inductive AccessKind where
  | read | write | pairRead | pairWrite
deriving DecidableEq, Repr

/-- A memory access (R5). -/
structure Access where
  kind : AccessKind
  size : Size
  addr : Addr
  data0 : Word
  data1 : Word
deriving DecidableEq, Repr

/-- What a held sample-window word does to its master's record when its access is DONE (R51, R52, R54, R57). -/
inductive WordEffect where
  /-- The word begins or continues no frame. -/
  | nothing
  /-- A head: the record it opens, and whether the frame fits (R50). -/
  | opens (frame : OpenFrame) (fits : Bool)
  /-- A plain word (R52). -/
  | advances (word : Word)
  /-- A value word, its stored form, its conversion and the kinds raised (R53). -/
  | converts (word stored : Word) (value : Option F64) (kinds : Kinds)
  /-- A check word and its verdict (R56). -/
  | closes (good : Bool)
deriving DecidableEq, Repr

/-- A word held by the Frame Assembler: its address, whether it tears the record its master then has only when the pair
completes DONE (R59), whether a window change has taken its effect away (R36), and its effect. -/
structure WordHold where
  addr : Addr
  tearsAtDone : Bool
  void : Bool
  effect : WordEffect
deriving DecidableEq, Repr

/-- A fetch in progress (R12, R42): words wanted, words read so far, attempts made of the access at hand, and whether
that access re-reads the second word of a pair. -/
structure Fetch where
  total : Nat
  got : List Word
  attempts : Nat
  single : Bool
deriving DecidableEq, Repr

/-- What a held write is for (R9). -/
inductive Purpose where
  | commit (pos : EntryPos)
  | command (slot : Fin 8)
deriving DecidableEq, Repr

/-- What the current transaction is doing. -/
inductive Phase where
  /-- Claims the port, or waits for memory, with this access (R6, R7, R8, R14); the held words of a sample-window
  write. -/
  | pass (access : Access) (holds : List WordHold)
  /-- A held commit or command word whose fetch is not complete (R12); `carried` are the words of the entry the held
  write itself carries. -/
  | fetch (purpose : Purpose) (f : Fetch) (carried : List Word)
  /-- An accepted commit or command whose held write is not complete (R13); the whole entry, or the six arguments and
  the command word; the attempts made. -/
  | held (purpose : Purpose) (words : List Word) (attempts : Nat)
  /-- The locked write (R16); the attempts made. -/
  | locked (attempts : Nat)
deriving DecidableEq, Repr

structure Current where
  txn : Transaction
  phase : Phase
deriving DecidableEq, Repr

/-- Who issued the access on the port, and so which response it awaits. -/
inductive Issuer where
  | passThrough | fetch | heldWrite | lockedWrite | own
deriving DecidableEq, Repr

/-- The access on the memory port (R5); a bus reset leaves it to run to a response that is discarded (R25). -/
structure PortAccess where
  issuer : Issuer
  access : Access
  discarded : Bool
deriving DecidableEq, Repr

/-- The fields captured by the access fault record (section 1.9). PART is tag 8 (R191). -/
structure AccessFault where
  tag : BitVec 4
  kind : FaultKind
  size : Size
  addr : Addr
  reason : FaultReason
  further : BitVec 8
deriving DecidableEq, Repr

/-- A completion given on the station bus (R2). -/
structure Completion where
  tag : Fin 8
  code : Code
  data : List Word
deriving DecidableEq, Repr

structure PathState where
  baseStraps : BitVec 4
  controlTag : BitVec 3
  current : Option Current
  lock : Option (Fin 8 × Addr)
  yield : Bool
  port : Option PortAccess
  /-- `none` is EMPTY. -/
  fault : Option AccessFault
  completion : Option Completion
deriving DecidableEq, Repr

structure AssemblerState where
  records : Vector (Option OpenFrame) 8
  closed : Word
  checkFailed : Word
  overrun : Word
  torn : Word
deriving DecidableEq, Repr

/-! ### The Classifier and the Arithmetic Unit (Chapters 4, 5) -/

structure ClassifierState where
  entries : Vector (Loaded ClassEntry) 64
  armed : Vector Bool 64
  checkers : Vector (Loaded RangeChecker) 8
  band : Loaded Band
  hits : Vector Word 32
deriving DecidableEq, Repr

/-- The fields captured by the arithmetic fault record (R106). -/
structure ArithFault where
  target : BitVec 4
  role : Role
  channel : BitVec 5
  sequence : BitVec 8
  raw : Word
  step : ArithStep
  kinds : Kinds
  further : BitVec 8
deriving DecidableEq, Repr

structure ArithState where
  conversions : Vector (Loaded Conversion) 32
  /-- `none` is EMPTY. -/
  fault : Option ArithFault
deriving DecidableEq, Repr

/-! ### The Point Engine and the Window Timer (Chapter 6) -/

/-- The current window of a point (R114). -/
structure PointWindow where
  volume : F64
  solids : F64
  samples : Nat
  excluded : Nat
  volumeComplete : Bool
  solidsComplete : Bool
  velocitySeen : Bool
deriving DecidableEq, Repr

/-- The last closed window of a point (R114). -/
structure ClosedWindow where
  number : Word
  volume : F64
  solids : F64
  volumeComplete : Bool
  solidsComplete : Bool
deriving DecidableEq, Repr

/-- A point record (R114); its enabled field is that of the loaded entry. -/
structure PointRecord where
  velocity : F64
  velocityTime : Word
  baseFlag : Bool
  density : F64
  densityTime : Word
  densityPresent : Bool
  pressure : F64
  volumeTotal : F64
  solidsTotal : F64
  sampleCount : Word
  window : PointWindow
  silentWindows : Nat
  conditions : BitVec 8
  hold : Bool
  sticky : BitVec 8
  closed : ClosedWindow
deriving DecidableEq, Repr

/-- A remote slot (R126). -/
structure RemoteSlot where
  volume : F64
  solids : F64
  count : Nat
  allComplete : Bool
  mismatch : Bool
  closedVolume : F64
  closedSolids : F64
  closedComplete : Bool
deriving DecidableEq, Repr

/-- What the second lookup of a sample left for the stages that follow it (R76, R122). -/
structure SampleWork where
  velocityFresh : Bool
  concentration : F64
  action : SecondAction
  entry : Option (Fin 64)
deriving DecidableEq, Repr

/-- A frame item in hand: the item, the potency set and the entry copies taken with it (R101, R111, R133). -/
structure FrameWork where
  item : FrameItem
  potency : Kinds
  point : Option PointEntry
  slot : Option SlotEntry
  sample : Option SampleWork
deriving DecidableEq, Repr

/-- The marker's view (R125): enabled points, their export flags, enabled slots; and the station id (R40). -/
structure MarkerView where
  points : Vector Bool 16
  exports : Vector Bool 16
  slots : Vector Bool 8
  stationId : BitVec 5
deriving DecidableEq, Repr

/-- What a producer waits to queue besides a DIGEST item (R164). -/
inductive Offer where
  | outbound (frame : List Word)
  | status (slot : Fin 8) (word : Word)
  | fetch (pos : EntryPos)
deriving DecidableEq, Repr

/-- The small acts an item's processing is made of. -/
inductive Act where
  /-- Reserve a digest record; its item is held by the engine when it finds no room (R164, R171). -/
  | digest (kind : DigestKind) (body : List Word)
  /-- Offer an item to the own-access queue. -/
  | offer (o : Offer)
  /-- Go on only when nothing the engine offered is held back. -/
  | await
  | cause (c : Cause)
  | publish (record : Fin 28)
  | countRelayed
deriving DecidableEq, Repr

/-- The stages of an item's processing. -/
inductive Stage where
  | frameDispatch
  | frameEffects
  | segmentStep (g : Fin 8)
  | outboundSummary (p : Fin 16)
  | provingClose
  | closeRequests
  | advanceWindow
  | report
  | reloadEnd (slot : Fin 8) (command : Word)
  | answer (slot : Fin 8) (word : Word)
deriving DecidableEq, Repr

/-- The item in hand (R111). `before` are the conditions and HOLD of every point when it was taken (R118); `acts` and
`stages` are what remains to be done. -/
structure Job where
  isCommand : Bool
  before : Vector (BitVec 8 × Bool) 16
  frame : Option FrameWork
  view : Option MarkerView
  acts : List Act
  stages : List Stage
  offer : Option Offer
deriving DecidableEq, Repr

/-- An image reload in progress (R41): FETCH items finished, refused count, failed count. -/
structure Reload where
  finished : Nat
  refused : Nat
  failed : Nat
deriving DecidableEq, Repr

structure EngineState where
  workQueue : List WorkItem
  pointEntries : Vector (Loaded PointEntry) 16
  points : Vector PointRecord 16
  slotEntries : Vector (Loaded SlotEntry) 8
  slots : Vector RemoteSlot 8
  windowNumber : Word
  job : Option Job
  reload : Option Reload
  processed : Word
  unclassified : Word
  toDisabledPoint : Word
  droppedByReset : Word
  lateWindows : Word
deriving DecidableEq, Repr

/-- R112. -/
structure TimerState where
  running : Bool
  count : BitVec 16
  period : Option (BitVec 16)
deriving DecidableEq, Repr

/-! ### The Balance Unit and the Proving Unit (Chapters 7, 8) -/

inductive SegState where
  | disabled | filling | watching
deriving DecidableEq, Repr

structure LagItem where
  window : Word
  amount : F64
  complete : Bool
deriving DecidableEq, Repr

/-- A difference, or GAP. -/
inductive Difference where
  | value (d : F64)
  | gap
deriving DecidableEq, Repr

/-- A segment record (R139). -/
structure Segment where
  state : SegState
  lag : List LagItem
  ring : List Difference
  sum : F64
  loss : Nat
  gain : Nat
  clear : Nat
  conditions : BitVec 3
  lastWindow : Option Word
  lastDifference : Option Difference
deriving DecidableEq, Repr

structure BalanceState where
  entries : Vector (Loaded SegmentEntry) 8
  segments : Vector Segment 8
  relayed : Word
  relayDropped : Word
deriving DecidableEq, Repr

inductive ProvingRun where
  | idle | armed | running | complete | aborted
deriving DecidableEq, Repr

inductive AbortReason where
  | none | command | stale | reset
deriving DecidableEq, Repr

/-- The proving record (R150). -/
structure ProvingState where
  run : ProvingRun
  number : BitVec 16
  owner : BitVec 8
  test : Fin 16
  reference : Fin 16
  requested : BitVec 8
  elapsed : BitVec 8
  firstWindow : Word
  testVolume : F64
  referenceVolume : F64
  testCount : Word
  referenceCount : Word
  factor : F64
  deviation : F64
  invalid : Bool
  incomplete : Bool
  abort : AbortReason
deriving DecidableEq, Repr

/-! ### The Publisher (Chapter 9) -/

/-- An item of the own-access queue (R162). -/
inductive OwnItem where
  | publish (record : Fin 28) (content : List Word)
  | digest (position : Nat) (words : List Word)
  | outbound (position : BitVec 5) (words : List Word)
  | status (slot : Fin 8) (word : Word)
  | fetch (pos : EntryPos)
deriving DecidableEq, Repr

/-- Progress of the begun item: accesses finished, and for the access at hand the attempts made; for a FETCH item the
words read and a re-read in progress (R20). -/
structure Progress where
  finished : Nat
  fetch : Fetch
deriving DecidableEq, Repr

inductive WriteState where
  | current | inUpdate | torn
deriving DecidableEq, Repr

inductive PendingMark where
  | none | queued | owed
deriving DecidableEq, Repr

/-- Publication state of a protected record (R166). -/
structure PubRecord where
  write : WriteState
  mark : PendingMark
  sequence : BitVec 16
deriving DecidableEq, Repr

/-- An occupied digest entry (R170): WRITTEN or RESERVED, and what its head carries. -/
structure DigestEntry where
  written : Bool
  sequence : BitVec 16
  lost : BitVec 8
deriving DecidableEq, Repr

/-- Digest ring bookkeeping (R170). The occupied entries lie at consecutive positions from `oldest`, oldest first; every
other position is FREE. -/
structure DigestRing where
  oldest : Nat
  occupied : List DigestEntry
  nextSequence : BitVec 16
  lost : BitVec 8
  sizePending : Bool
deriving DecidableEq, Repr

/-- A DIGEST item held back (R164): deferred, or held by the waiting producer. -/
structure HeldDigest where
  position : Nat
  words : List Word
  byEngine : Bool
deriving DecidableEq, Repr

structure PublisherState where
  queue : List OwnItem
  begun : Option Progress
  records : Vector PubRecord 28
  owedStatus : List (Fin 8 × Word)
  digest : DigestRing
  heldDigests : List HeldDigest
  outboundIndex : BitVec 5
  digestLost : Word
  digestAbandoned : Word
deriving DecidableEq, Repr

/-! ### The Command Unit (Chapter 10) -/

structure CommandState where
  /-- Bit s is set when slot s is ACCEPTED (R180). -/
  accepted : Vector Bool 8
  /-- The slot whose command write holds the granted place (R180). -/
  granted : Option (Fin 8)
deriving DecidableEq, Repr

/-- The machine. `irq` is the pending cause set (R187); the interrupt line is asserted while it is not empty (R188). -/
structure State where
  path : PathState
  asm : AssemblerState
  cls : ClassifierState
  arith : ArithState
  settings : Loaded GlobalSettings
  engine : EngineState
  timer : TimerState
  balance : BalanceState
  proving : ProvingState
  pub : PublisherState
  cmd : CommandState
  irq : BitVec 6
  /-- The commands that wait, first in first out (the task's form). -/
  pending : List Instr
deriving DecidableEq, Repr

/-! ### Values after power-on reset -/

def Loaded.unloaded {α : Type} : Loaded α := ⟨0, none⟩

def PointWindow.zero : PointWindow := ⟨0, 0, 0, 0, false, false, false⟩

/-- R114, last column. -/
def PointRecord.initial : PointRecord where
  velocity := 0
  velocityTime := 0
  baseFlag := false
  density := 0
  densityTime := 0
  densityPresent := false
  pressure := 0
  volumeTotal := 0
  solidsTotal := 0
  sampleCount := 0
  window := PointWindow.zero
  silentWindows := 0
  conditions := 0
  hold := false
  sticky := 0
  closed := ⟨0, 0, 0, false, false⟩

/-- R126: zero, with all flags clear. -/
def RemoteSlot.initial : RemoteSlot := ⟨0, 0, 0, false, false, 0, 0, false⟩

/-- R139, last column. -/
def Segment.initial : Segment := ⟨.disabled, [], [], 0, 0, 0, 0, 0, none, none⟩

/-- R150, last column. -/
def ProvingState.initial : ProvingState where
  run := .idle
  number := 0
  owner := 0
  test := 0
  reference := 0
  requested := 0
  elapsed := 0
  firstWindow := 0
  testVolume := 0
  referenceVolume := 0
  testCount := 0
  referenceCount := 0
  factor := 0
  deviation := 0
  invalid := false
  incomplete := false
  abort := .none

/-- R170. -/
def DigestRing.initial : DigestRing := ⟨0, [], 0, 0, false⟩

/-- The state right after a power-on reset that sampled these straps (R24, R28, R47, R64, R77, R107, R108, R112, R114,
R126, R127, R130, R137, R139, R149, R150, R162, R166, R170, R177, R180, R190). -/
def State.powerOn (baseStraps : BitVec 4) (tagStraps : BitVec 3) : State where
  path := {
    baseStraps := baseStraps
    controlTag := tagStraps
    current := none
    lock := none
    yield := false
    port := none
    fault := none
    completion := none }
  asm := {
    records := Vector.replicate 8 none
    closed := 0
    checkFailed := 0
    overrun := 0
    torn := 0 }
  cls := {
    entries := Vector.replicate 64 Loaded.unloaded
    armed := Vector.replicate 64 false
    checkers := Vector.replicate 8 Loaded.unloaded
    band := Loaded.unloaded
    hits := Vector.replicate 32 0 }
  arith := {
    conversions := Vector.replicate 32 Loaded.unloaded
    fault := none }
  settings := Loaded.unloaded
  engine := {
    workQueue := []
    pointEntries := Vector.replicate 16 Loaded.unloaded
    points := Vector.replicate 16 PointRecord.initial
    slotEntries := Vector.replicate 8 Loaded.unloaded
    slots := Vector.replicate 8 RemoteSlot.initial
    windowNumber := 0
    job := none
    reload := none
    processed := 0
    unclassified := 0
    toDisabledPoint := 0
    droppedByReset := 0
    lateWindows := 0 }
  timer := ⟨false, 0, none⟩
  balance := {
    entries := Vector.replicate 8 Loaded.unloaded
    segments := Vector.replicate 8 Segment.initial
    relayed := 0
    relayDropped := 0 }
  proving := ProvingState.initial
  pub := {
    queue := []
    begun := none
    records := Vector.replicate 28 ⟨.current, .none, 0⟩
    owedStatus := []
    digest := DigestRing.initial
    heldDigests := []
    outboundIndex := 0
    digestLost := 0
    digestAbandoned := 0 }
  cmd := ⟨Vector.replicate 8 false, none⟩
  irq := 0
  pending := []

/-- The machine right after reset: a power-on reset whose straps all read 0 (DESIGN CHOICE, log 5). -/
def State.reset : State := State.powerOn 0 0

end Sys2Proof.Machine
end

