-- ==== Sys2Proof/Machine/Flags.lean ====
section
/-! DEFINITION. Floating-point arithmetic and the exception kinds it raises (Chapter 5, R88 to R100): every operation is
computed exactly in integers and rounded once, to nearest with ties to even. -/
namespace Sys2Proof.Machine

/-! ### Fields of the two formats (section 1.6) -/

def f64Exp (x : F64) : Nat := x.toNat / 2 ^ 52 % 2048
def f64Frac (x : F64) : Nat := x.toNat % 2 ^ 52
def f64Neg (x : F64) : Bool := x.msb
def f64IsNaN (x : F64) : Bool := f64Exp x == 2047 && f64Frac x != 0
def f64IsInf (x : F64) : Bool := f64Exp x == 2047 && f64Frac x == 0
def f64IsZero (x : F64) : Bool := f64Exp x == 0 && f64Frac x == 0
def f64IsSubnormal (x : F64) : Bool := f64Exp x == 0 && f64Frac x != 0

/-- The significand as an integer: the magnitude of a finite value is `f64Mant x * 2 ^ f64Scale x / 2 ^ 1074`. -/
def f64Mant (x : F64) : Nat := if f64Exp x = 0 then f64Frac x else f64Frac x + 2 ^ 52
def f64Scale (x : F64) : Nat := f64Exp x - 1

def f32Exp (x : F32) : Nat := x.toNat / 2 ^ 23 % 256
def f32Frac (x : F32) : Nat := x.toNat % 2 ^ 23
def f32Neg (x : F32) : Bool := x.msb
def f32IsNaN (x : F32) : Bool := f32Exp x == 255 && f32Frac x != 0
def f32IsInf (x : F32) : Bool := f32Exp x == 255 && f32Frac x == 0
def f32IsZero (x : F32) : Bool := f32Exp x == 0 && f32Frac x == 0
def f32IsSubnormal (x : F32) : Bool := f32Exp x == 0 && f32Frac x != 0
def f32IsFinite (x : F32) : Bool := f32Exp x != 255
def f32Mant (x : F32) : Nat := if f32Exp x = 0 then f32Frac x else f32Frac x + 2 ^ 23
def f32Scale (x : F32) : Nat := f32Exp x - 1

/-- The canonical quiet NaN (R89). -/
def f64NaN : F64 := 0x7FF8000000000000#64
def f32NaN : F32 := 0x7FC00000#32

def f64Inf (neg : Bool) : F64 := if neg then 0xFFF0000000000000#64 else 0x7FF0000000000000#64
def f64Zero (neg : Bool) : F64 := if neg then 0x8000000000000000#64 else 0#64
def f64One : F64 := 0x3FF0000000000000#64

/-! ### Rounding -/

/-- A rounded magnitude: its encoding without the sign, whether it overflowed, whether the exact magnitude lay below the
smallest normal value, and whether it differs from the exact magnitude. -/
structure Rounded where
  magnitude : Nat
  overflow : Bool
  tiny : Bool
  inexact : Bool
deriving DecidableEq, Repr

/-- Rounds the magnitude `n * 2 ^ k` (`n` positive; with `sticky`, a little more than that) to nearest, ties to even, in
the format with `frac` fraction bits, smallest unit `2 ^ unit` and exponent field `maxExp` for infinity (R88, R90). With
`sticky` the caller gives `n` at least `frac + 3` bits. -/
def roundMagnitude (frac : Nat) (unit : Int) (maxExp : Nat) (n : Nat) (k : Int) (sticky : Bool) : Rounded :=
  let len : Int := Nat.log2 n + 1
  let q : Int := max unit (k + len - (frac + 1))
  let down := (q - k).toNat
  let up := (k - q).toNat
  let whole := (n <<< up) >>> down
  let rest := (n <<< up) % 2 ^ down
  let half := 2 ^ down / 2
  let roundUp := down != 0 && (decide (half < rest) || (rest == half && (sticky || whole % 2 == 1)))
  let m := whole + roundUp.toNat
  let encoded := m + (q - unit).toNat * 2 ^ frac
  let infinite := maxExp * 2 ^ frac
  let tooBig := decide (infinite ≤ encoded)
  { magnitude := if tooBig then infinite else encoded
    overflow := tooBig
    tiny := decide (k + len ≤ unit + frac)
    inexact := tooBig || rest != 0 || sticky }

/-- The kinds of a rounding (R90): OVERFLOW and UNDERFLOW always come with INEXACT. -/
def Rounded.kinds (r : Rounded) : Kinds :=
  (if r.overflow then kOverflow else 0)
    ||| (if r.tiny && r.inexact && !r.overflow then kUnderflow else 0)
    ||| (if r.inexact then kInexact else 0)

/-- The result of an operation: its binary64 value and the kinds it raised. -/
structure Result where
  value : F64
  kinds : Kinds
deriving DecidableEq, Repr

/-- Rounds an exact nonzero result to binary64. -/
def round64 (neg : Bool) (n : Nat) (k : Int) (sticky : Bool) : Result :=
  let r := roundMagnitude 52 (-1074) 2047 n k sticky
  ⟨BitVec.ofNat 64 (r.magnitude + neg.toNat * 2 ^ 63), r.kinds⟩

/-! ### Operands -/

/-- An operand, widened to binary64, and whether it is subnormal in the format in which it is held (R88, R90). -/
structure Operand where
  value : F64
  denormal : Bool
deriving DecidableEq, Repr

/-- Widening is exact (R88). -/
def widen (x : F32) : F64 :=
  if f32IsNaN x then f64NaN
  else if f32IsInf x then f64Inf (f32Neg x)
  else if f32IsZero x then f64Zero (f32Neg x)
  else (round64 (f32Neg x) (f32Mant x) (f32Scale x - 149) false).value

def held64 (x : F64) : Operand := ⟨x, f64IsSubnormal x⟩
def held32 (x : F32) : Operand := ⟨widen x, f32IsSubnormal x⟩

/-- Integers enter the arithmetic exactly (R88). -/
def f64OfInt (i : Int) : F64 :=
  if i = 0 then 0 else (round64 (decide (i < 0)) i.natAbs 0 false).value

def intOperand (i : Int) : Operand := ⟨f64OfInt i, false⟩

/-- Narrowing (R99); its kinds are discarded. -/
def narrow (x : F64) : F32 :=
  if f64IsNaN x then f32NaN
  else
    let sign := (f64Neg x).toNat * 2 ^ 31
    if f64IsInf x then BitVec.ofNat 32 (sign + 255 * 2 ^ 23)
    else if f64IsZero x then BitVec.ofNat 32 sign
    else BitVec.ofNat 32
      (sign + (roundMagnitude 23 (-149) 255 (f64Mant x) ((f64Scale x : Int) - 1074) false).magnitude)

/-! ### Operations (R89, R90)

An operation on an infinite operand that is not INVALID raises no kind, DENORMAL included (R89, log 34). -/

def denormalKinds (a b : Operand) : Kinds := if a.denormal || b.denormal then kDenormal else 0

/-- INVALID from a NaN operand comes alone; any other INVALID may come with DENORMAL. -/
def invalidResult (kinds : Kinds) : Result := ⟨f64NaN, kInvalid ||| kinds⟩

def withKinds (kinds : Kinds) (r : Result) : Result := ⟨r.value, r.kinds ||| kinds⟩

/-- A finite value as an integer count of `2 ^ (scale - 1074)`, for a scale not above its own. -/
def f64Units (scale : Nat) (x : F64) : Int :=
  let m : Int := (f64Mant x <<< (f64Scale x - scale) : Nat)
  if f64Neg x then -m else m

/-- The exact sum or difference of two finite values, rounded; `zero` is the result when it is exactly zero. -/
def roundSum (x y : F64) (negate : Bool) (zero : F64) : Result :=
  let scale := min (f64Scale x) (f64Scale y)
  let second := f64Units scale y
  let exact := f64Units scale x + (if negate then -second else second)
  if exact = 0 then ⟨zero, 0⟩
  else round64 (decide (exact < 0)) exact.natAbs ((scale : Int) - 1074) false

/-- Sum: an exact zero is +0, except that (-0) + (-0) is -0 (R89). -/
def fAdd (a b : Operand) : Result :=
  let x := a.value
  let y := b.value
  if f64IsNaN x || f64IsNaN y then invalidResult 0
  else
    let den := denormalKinds a b
    if f64IsInf x then
      if f64IsInf y && f64Neg x != f64Neg y then invalidResult den else ⟨x, 0⟩
    else if f64IsInf y then ⟨y, 0⟩
    else withKinds den (roundSum x y false
      (f64Zero (f64IsZero x && f64IsZero y && f64Neg x && f64Neg y)))

/-- Difference: an exact zero is +0 (R89). -/
def fSub (a b : Operand) : Result :=
  let x := a.value
  let y := b.value
  if f64IsNaN x || f64IsNaN y then invalidResult 0
  else
    let den := denormalKinds a b
    if f64IsInf x then
      if f64IsInf y && f64Neg x == f64Neg y then invalidResult den else ⟨x, 0⟩
    else if f64IsInf y then ⟨f64Inf (!f64Neg y), 0⟩
    else withKinds den (roundSum x y true 0)

def fMul (a b : Operand) : Result :=
  let x := a.value
  let y := b.value
  let neg := f64Neg x != f64Neg y
  if f64IsNaN x || f64IsNaN y then invalidResult 0
  else
    let den := denormalKinds a b
    if f64IsInf x || f64IsInf y then
      if f64IsZero x || f64IsZero y then invalidResult den else ⟨f64Inf neg, 0⟩
    else if f64IsZero x || f64IsZero y then ⟨f64Zero neg, den⟩
    else withKinds den (round64 neg (f64Mant x * f64Mant y) ((f64Scale x : Int) + f64Scale y - 2148) false)

/-- Quotient. A nonzero value divided by zero is an infinity with no kind: the part has no division-by-zero kind and no
step divides by zero (R90, R96, R157). -/
def fDiv (a b : Operand) : Result :=
  let x := a.value
  let y := b.value
  let neg := f64Neg x != f64Neg y
  if f64IsNaN x || f64IsNaN y then invalidResult 0
  else
    let den := denormalKinds a b
    if f64IsInf x then
      if f64IsInf y then invalidResult den else ⟨f64Inf neg, 0⟩
    else if f64IsInf y then ⟨f64Zero neg, 0⟩
    else if f64IsZero y then
      if f64IsZero x then invalidResult den else ⟨f64Inf neg, den⟩
    else if f64IsZero x then ⟨f64Zero neg, den⟩
    else
      let n := f64Mant x <<< 120
      let d := f64Mant y
      withKinds den (round64 neg (n / d) ((f64Scale x : Int) - f64Scale y - 120) (n % d != 0))

/-- The integer square root, one binary digit at a time from digit `bits - 1` down. -/
def isqrtFrom : Nat → Nat → Nat → Nat
  | 0, _, r => r
  | b + 1, n, r =>
    let c := r + 2 ^ b
    isqrtFrom b n (if c * c ≤ n then c else r)

/-- Square root: of a zero, that zero; of +∞, +∞; below zero, INVALID (R90). -/
def fSqrt (a : Operand) : Result :=
  let x := a.value
  if f64IsNaN x then invalidResult 0
  else
    let den := if a.denormal then kDenormal else 0
    if f64IsZero x then ⟨x, den⟩
    else if f64Neg x then invalidResult den
    else if f64IsInf x then ⟨x, 0⟩
    else
      let shift := 116 + f64Scale x % 2
      let n := f64Mant x <<< shift
      let r := isqrtFrom 86 n 0
      withKinds den (round64 false r (((f64Scale x : Int) - 1074 - shift) / 2) (r * r != n))

/-! ### Comparisons, which raise no kind (R70, R72) -/

/-- An integer that orders the values that are not NaN as their magnitudes and signs do; the two zeros are equal. -/
def f64Key (x : F64) : Int :=
  let m : Int := (x.toNat % 2 ^ 63 : Nat)
  if f64Neg x then -m else m

def fLe (x y : F64) : Bool := !f64IsNaN x && !f64IsNaN y && decide (f64Key x ≤ f64Key y)
def fLt (x y : F64) : Bool := !f64IsNaN x && !f64IsNaN y && decide (f64Key x < f64Key y)

/-- The same value with the sign positive. -/
def f64Abs (x : F64) : F64 := BitVec.ofNat 64 (x.toNat % 2 ^ 63)
def f64Negate (x : F64) : F64 := x ^^^ 0x8000000000000000#64

/-! ### The steps (R91) -/

/-- The CONVERSION step (R93), or the result for an UNLOADED entry (R94). -/
def convertValue (c : Option Conversion) (w : Word) : Result :=
  match c with
  | none => invalidResult 0
  | some c =>
    let raw : Result := match c.form with
      | .signed => ⟨f64OfInt w.toInt, 0⟩
      | .unsigned => ⟨f64OfInt w.toNat, 0⟩
      | .float =>
        if f32IsNaN w then invalidResult 0
        else ⟨widen w, if f32IsSubnormal w then kDenormal else 0⟩
    let scaled := fMul (held64 raw.value) (held32 c.scale)
    let offset := fAdd (held64 scaled.value) (held32 c.offset)
    let kinds := raw.kinds ||| scaled.kinds ||| offset.kinds
    if c.root then
      let root := fSqrt (held64 offset.value)
      let converted := fMul (held32 c.coefficient) (held64 root.value)
      ⟨converted.value, kinds ||| root.kinds ||| converted.kinds⟩
    else ⟨offset.value, kinds⟩

/-- The FLOW step (R95). -/
def flowStep (e : PointEntry) (velocity : F64) : Result := fMul (held32 e.area) (held64 velocity)

/-- The clamp (R96): the clamped value, and whether the sample carries CV CLAMPED. -/
def clampCv (q : F64) : F64 × Bool :=
  if fLt f64One q then (f64One, true)
  else if fLt q 0 then (0, true)
  else (q, false)

/-- The CONCENTRATION step (R96): the clamped concentration with its kinds, and CV CLAMPED. -/
def concentrationStep (e : PointEntry) (density : F64) : Result × Bool :=
  let numerator := fSub (held64 density) (held32 e.water)
  let divisor := fSub (held32 e.solids) (held32 e.water)
  let quotient := fDiv (held64 numerator.value) (held64 divisor.value)
  let cv := clampCv quotient.value
  (⟨cv.1, numerator.kinds ||| divisor.kinds ||| quotient.kinds⟩, cv.2)

/-- The SOLIDS RATE step (R97). -/
def solidsRateStep (e : PointEntry) (flow cv : F64) : Result :=
  let a := fMul (held64 flow) (held64 cv)
  let b := fMul (held64 a.value) (held32 e.solids)
  ⟨b.value, a.kinds ||| b.kinds⟩

/-- The increments of the INTEGRATION step (R98, items 1 to 6): ΔV, ΔMs when the latest density is fresh, and the kinds. -/
structure Increments where
  volume : F64
  solids : Option F64
  kinds : Kinds
deriving DecidableEq, Repr

/-- 0.5 and 1 000 in binary64. -/
def f64Half : F64 := 0x3FE0000000000000#64
def f64Thousand : F64 := 0x408F400000000000#64

def incrementsOf (e : PointEntry) (velocity previous : F64) (millis : Word) (cv : Option F64) : Increments :=
  let sum := fAdd (held64 velocity) (held64 previous)
  let mean := fMul (held64 sum.value) (held64 f64Half)
  let flow := fMul (held32 e.area) (held64 mean.value)
  let scaled := fMul (held64 flow.value) (intOperand millis.toNat)
  let volume := fDiv (held64 scaled.value) (held64 f64Thousand)
  let kinds := sum.kinds ||| mean.kinds ||| flow.kinds ||| scaled.kinds ||| volume.kinds
  match cv with
  | none => ⟨volume.value, none, kinds⟩
  | some cv =>
    let a := fMul (held64 volume.value) (held64 cv)
    let b := fMul (held64 a.value) (held32 e.solids)
    ⟨volume.value, some b.value, kinds ||| a.kinds ||| b.kinds⟩

end Sys2Proof.Machine
end

