-- ==== Sys2Proof/Machine/Operands.lean ====
section
/-! DEFINITION. Fields of words (R191), the layouts of frames, entries and commands as they are read (Tables 11-2 to
11-8), validation (Table 2-3, R87, R192), and the codes written (Table 11-1). -/
namespace Sys2Proof.Machine

/-! ### Tables indexed by a bounded number -/

/-- One place of a table changed. -/
def upd {α : Type} {n : Nat} (v : Vector α n) (i : Fin n) (x : α) : Vector α n := v.set i.val x i.isLt

/-! ### Bit fields (R191) -/

/-- The unsigned number in `len` bits of `w` from bit `lo`. -/
def bits (w : Word) (lo len : Nat) : Nat := w.toNat / 2 ^ lo % 2 ^ len

def bit (w : Word) (i : Nat) : Bool := w.getLsbD i

/-- A number placed with its lowest bit at bit `lo`. -/
def put (n lo : Nat) : Word := BitVec.ofNat 32 (n * 2 ^ lo)

def putBit (b : Bool) (lo : Nat) : Word := put b.toNat lo

/-- Word `i` of a list of words; words beyond the list read as 0. -/
def wordAt (ws : List Word) (i : Nat) : Word := ws.getD i 0

/-- A binary64 value in two consecutive words, the high one first (R191). -/
def f64At (ws : List Word) (i : Nat) : F64 := BitVec.append (wordAt ws i) (wordAt ws (i + 1))

def f64Words (x : F64) : List Word := [x.extractLsb' 32 32, x.extractLsb' 0 32]

/-! ### Head words and summary words (Tables 11-2, 11-3) -/

def headKind (h : Word) : BitVec 4 := h.extractLsb' 0 4
def headChannel (h : Word) : BitVec 5 := h.extractLsb' 4 5
def headSequence (h : Word) : BitVec 8 := h.extractLsb' 16 8
def headQuality (h : Word) : BitVec 4 := h.extractLsb' 24 4
/-- The head with the CONVERTED flag set (R50, R55). A word that store form CONVERTED rewrites has 0 in the bits that
Table 11-2 does not assign, 9 to 15 and 28 to 30 (R191, log 30). -/
def headConverted (h : Word) : Word := h &&& 0x0FFF01FF#32 ||| 0x80000000#32

/-- Kind 8 is SUMMARY (Table 3-1). -/
def kindSummary : BitVec 4 := 8#4

/-- Length of a frame by kind (R44). -/
def frameLength (kind : BitVec 4) : Nat := if kind = kindSummary then 8 else 4

/-- The check word over the given words (section 1.6, R46). -/
def checkWord (ws : List Word) : Word := ~~~(ws.foldl (· + ·) 0)

def FrameItem.head (f : FrameItem) : Word := wordAt f.received 0
def FrameItem.kind (f : FrameItem) : BitVec 4 := headKind f.head
def FrameItem.isSummary (f : FrameItem) : Bool := f.kind == kindSummary
/-- Word 1 of a four-word frame. -/
def FrameItem.timeStamp (f : FrameItem) : Word := wordAt f.received 1
/-- The raw value word the arithmetic fault record captures (R106). -/
def FrameItem.raw (f : FrameItem) : Word := wordAt f.received (if f.isSummary then 4 else 2)
def FrameItem.station (f : FrameItem) : BitVec 5 := (wordAt f.received 1).extractLsb' 0 5
def FrameItem.upstreamPoint (f : FrameItem) : BitVec 4 := (wordAt f.received 2).extractLsb' 0 4
def FrameItem.hops (f : FrameItem) : BitVec 3 := (wordAt f.received 2).extractLsb' 8 3
def FrameItem.complete (f : FrameItem) : Bool := bit (wordAt f.received 2) 16
def FrameItem.summaryWindow (f : FrameItem) : Word := wordAt f.received 3
def FrameItem.summaryVolume (f : FrameItem) : F64 := f64At f.received 4
def FrameItem.summarySolids (f : FrameItem) : F32 := wordAt f.received 6

/-! ### The control area's layout (Table 2-1) -/

/-- Offset of an entry's first word. -/
def EntryPos.offset : EntryPos → Nat
  | .globalSettings => 0x0000
  | .band => 0x0040
  | .checker i => 0x0080 + 16 * i
  | .conversion i => 0x0100 + 16 * i
  | .point p => 0x0400 + 64 * p
  | .segment g => 0x0800 + 64 * g
  | .slot r => 0x0A00 + 16 * r
  | .classification e => 0x0C00 + 32 * e

/-- Words of an entry, the commit word included. -/
def EntryPos.words : EntryPos → Nat
  | .globalSettings | .point _ | .segment _ => 16
  | .band | .classification _ => 8
  | .checker _ | .conversion _ | .slot _ => 4

/-- The entry whose commit word lies at this offset of the control area, if any (R27). -/
def commitAt (off : Nat) : Option EntryPos :=
  if off = 0x003C then some .globalSettings
  else if off = 0x005C then some .band
  else if 0x0080 ≤ off ∧ off < 0x0100 then
    if off % 16 = 0x0C then some (.checker (Fin.ofNat 8 ((off - 0x0080) / 16))) else none
  else if 0x0100 ≤ off ∧ off < 0x0300 then
    if off % 16 = 0x0C then some (.conversion (Fin.ofNat 32 ((off - 0x0100) / 16))) else none
  else if 0x0400 ≤ off ∧ off < 0x0800 then
    if off % 64 = 0x3C then some (.point (Fin.ofNat 16 ((off - 0x0400) / 64))) else none
  else if 0x0800 ≤ off ∧ off < 0x0A00 then
    if off % 64 = 0x3C then some (.segment (Fin.ofNat 8 ((off - 0x0800) / 64))) else none
  else if 0x0A00 ≤ off ∧ off < 0x0A80 then
    if off % 16 = 0x0C then some (.slot (Fin.ofNat 8 ((off - 0x0A00) / 16))) else none
  else if 0x0C00 ≤ off ∧ off < 0x1400 then
    if off % 32 = 0x1C then some (.classification (Fin.ofNat 64 ((off - 0x0C00) / 32))) else none
  else none

/-- The command slot whose command word (word 7) lies at this offset, if any (R180). -/
def commandAt (off : Nat) : Option (Fin 8) :=
  if 0x1400 ≤ off ∧ off < 0x1500 ∧ off % 32 = 0x1C then some (Fin.ofNat 8 ((off - 0x1400) / 32)) else none

/-- The protected record a word of the control area belongs to (R166). -/
def recordAt (off : Nat) : Option (Fin 28) :=
  if 0x1800 ≤ off ∧ off < 0x1C00 then some (Fin.ofNat 28 ((off - 0x1800) / 64))
  else if 0x1C00 ≤ off ∧ off < 0x1E00 then some (Fin.ofNat 28 (16 + (off - 0x1C00) / 64))
  else if 0x1E00 ≤ off ∧ off < 0x1F00 then some 24
  else if 0x1F00 ≤ off ∧ off < 0x1F40 then some 25
  else if 0x1F40 ≤ off ∧ off < 0x1F60 then some 26
  else if 0x1F60 ≤ off ∧ off < 0x1F80 then some 27
  else none

/-- Offset of a protected record (R166). -/
def recordOffset (r : Fin 28) : Nat :=
  if r.val < 16 then 0x1800 + 64 * r.val
  else if r.val < 24 then 0x1C00 + 64 * (r.val - 16)
  else if r.val = 24 then 0x1E00
  else if r.val = 25 then 0x1F00
  else if r.val = 26 then 0x1F40
  else 0x1F60

/-- The owned offsets (R4), with the digest ring's size in effect. -/
def ownedOffset (ringSize off : Nat) : Bool :=
  (0x1800 ≤ off && off ≤ 0x1F7F)
    || (0x2000 ≤ off && off ≤ 0x23FF)
    || (0x1400 ≤ off && off < 0x1500 && (off - 0x1400) % 32 / 4 == 6)
    || (0x4000 ≤ off && off < 0x4000 + 32 * ringSize)

/-- The 138 entry positions in the order of an image reload (R41). -/
def reloadOrder : List EntryPos :=
  [.globalSettings, .band]
    ++ (List.range 8).map (fun i => .checker (Fin.ofNat 8 i))
    ++ (List.range 32).map (fun i => .conversion (Fin.ofNat 32 i))
    ++ (List.range 16).map (fun i => .point (Fin.ofNat 16 i))
    ++ (List.range 8).map (fun i => .segment (Fin.ofNat 8 i))
    ++ (List.range 8).map (fun i => .slot (Fin.ofNat 8 i))
    ++ (List.range 64).map (fun i => .classification (Fin.ofNat 64 i))

/-! ### Entries as read, with the checks of Table 2-3

Each reader answers the validated fields, or `none` where Table 2-3, R87 or R192 refuses the entry. -/

/-- The commit word (section 11.3). -/
def commitGeneration (w : Word) : BitVec 8 := w.extractLsb' 0 8
def commitValid (w : Word) : Bool := bit w 31

/-- The ring size a code names (Table 11-1). -/
def ringSizeOf (code : Nat) : Option Nat :=
  if code = 0 then some 16 else if code = 1 then some 32 else if code = 2 then some 64
  else if code = 3 then some 128 else if code = 4 then some 256 else none

/-- Window w of the global settings entry (Table 11-4). -/
def readWindow (ws : List Word) (w : Nat) : SampleWindow :=
  ⟨bit (wordAt ws 2) (16 + w), wordAt ws (3 + 2 * w), wordAt ws (4 + 2 * w)⟩

/-- An enabled window must lie on multiples of 16 inside the memory and not be empty; a disabled one is not checked. -/
def windowOk (w : SampleWindow) : Bool :=
  !w.enable || (w.base.toNat % 16 == 0 && w.length.toNat % 16 == 0 && w.length != 0
    && decide (w.base.toNat + w.length.toNat ≤ 2 ^ 24))

def readGlobal (ws : List Word) : Option GlobalSettings :=
  let w0 := wordAt ws 0
  let w1 := wordAt ws 1
  let w2 := wordAt ws 2
  match ringSizeOf (bits w1 16 3) with
  | none => none
  | some size =>
    let g : GlobalSettings := {
      enable := bit w0 0
      stationId := w0.extractLsb' 8 5
      hopLimit := w0.extractLsb' 16 3
      vectorBase := w0.extractLsb' 24 8
      period := w1.extractLsb' 0 16
      ringSize := size
      threshold := bits w1 20 9
      causeEnable := w2.extractLsb' 0 6
      potency := w2.extractLsb' 8 5
      windows := #v[readWindow ws 0, readWindow ws 1, readWindow ws 2, readWindow ws 3] }
    if 100 ≤ g.period.toNat && g.period.toNat ≤ 60000 && 1 ≤ g.threshold && g.threshold ≤ size
        && g.hopLimit != 0 && g.windows.toList.all windowOk
    then some g else none

/-- Strictly ascending as numbers. -/
def ascending : List F32 → Bool
  | [] => true
  | [_] => true
  | x :: y :: rest => fLt (widen x) (widen y) && ascending (y :: rest)

def readBand (ws : List Word) : Option Band :=
  let t : Vector F32 7 := #v[wordAt ws 0, wordAt ws 1, wordAt ws 2, wordAt ws 3, wordAt ws 4, wordAt ws 5, wordAt ws 6]
  if t.toList.all f32IsFinite && ascending t.toList then some ⟨t⟩ else none

def quantityOf (code : Nat) : Option Quantity :=
  if code = 0 then some .roleValue else if code = 1 then some .velocity else if code = 2 then some .density
  else if code = 3 then some .concentration else if code = 4 then some .flowRate
  else if code = 5 then some .solidsRate else if code = 6 then some .pressure else none

/-- Neither bound NaN, and low not greater than high: `fLe` is false of a NaN. -/
def readChecker (ws : List Word) : Option RangeChecker :=
  match quantityOf (bits (wordAt ws 0) 0 3) with
  | none => none
  | some q =>
    let low := wordAt ws 1
    let high := wordAt ws 2
    if fLe (widen low) (widen high) then some ⟨q, low, high⟩ else none

def inputFormOf (code : Nat) : Option InputForm :=
  if code = 0 then some .signed else if code = 1 then some .unsigned else if code = 2 then some .float else none

def readConversion (ws : List Word) : Option Conversion :=
  let commit := wordAt ws 3
  match inputFormOf (bits commit 8 2) with
  | none => none
  | some form =>
    let c : Conversion := ⟨form, bit commit 12, wordAt ws 0, wordAt ws 1, wordAt ws 2⟩
    if f32IsFinite c.scale && f32IsFinite c.offset && f32IsFinite c.coefficient then some c else none

/-- Positive and finite. -/
def f32Positive (x : F32) : Bool := f32IsFinite x && fLt 0 (widen x)

def readPoint (ws : List Word) : Option PointEntry :=
  let e : PointEntry := {
    enable := bit (wordAt ws 6) 0
    area := wordAt ws 0
    water := wordAt ws 1
    solids := wordAt ws 2
    pairingLimit := wordAt ws 3
    gapLimit := wordAt ws 4
    staleLimit := (wordAt ws 5).extractLsb' 0 8
    exportFlag := bit (wordAt ws 6) 1 }
  if f32Positive e.area && f32Positive e.water && f32Positive e.solids && fLt (widen e.water) (widen e.solids)
      && e.staleLimit != 0
  then some e else none

def readSegment (ws : List Word) : Option SegmentEntry :=
  let w0 := wordAt ws 0
  let w1 := wordAt ws 1
  let fromSlot := bit w0 8
  let number := bits w0 12 4
  let e : SegmentEntry := {
    enable := bit w0 0
    inflow := if fromSlot then .slot (Fin.ofNat 8 number) else .point (Fin.ofNat 16 number)
    outflow := Fin.ofNat 16 (bits w0 16 4)
    basis := if bit w0 4 then .solids else .volume
    lag := bits w1 0 5
    span := bits w1 8 5
    persistence := bits w1 16 4
    threshold := wordAt ws 2
    clearLevel := wordAt ws 3 }
  if (!fromSlot || number < 8) && 1 ≤ e.span && e.span ≤ 16 && 1 ≤ e.persistence && f32Positive e.threshold
      && fLe 0 (widen e.clearLevel) && fLt (widen e.clearLevel) (widen e.threshold)
  then some e else none

def readSlot (ws : List Word) : Option SlotEntry :=
  let w0 := wordAt ws 0
  if bits w0 8 8 < 32 then some ⟨bit w0 0, w0.extractLsb' 8 5⟩ else none

def dispositionOf (code : Nat) : Disposition :=
  if code = 0 then .process else if code = 1 then .passOnly else if code = 2 then .relay else .processAndRelay

/-- Role codes of a key or an action: 3 is used in records only (Table 11-1). -/
def roleOf (code : Nat) : Option Role :=
  if code = 0 then some .velocity else if code = 1 then some .density else if code = 2 then some .pressure else none

def captureModeOf (code : Nat) : Option CaptureMode :=
  if code = 0 then some .none else if code = 1 then some .next else if code = 2 then some .every else none

/-- 0-31 a hit counter, 63 none (Table 11-1). -/
def counterOf (code : Nat) : Option (Option (Fin 32)) :=
  if code < 32 then some (some (Fin.ofNat 32 code)) else if code = 63 then some none else none

def condModeOf (code : Nat) : Option CondMode :=
  if code = 0 then some .none else if code = 1 then some .raise else if code = 2 then some .clear
  else if code = 3 then some .replace else if code = 4 then some .replaceHold else none

/-- 1 YES, 2 NO (Table 11-1). -/
def yesNoOf (code : Nat) : Option Bool :=
  if code = 1 then some true else if code = 2 then some false else none

def readFirstKey (ws : List Word) : FirstKey :=
  let v := wordAt ws 0
  let m := wordAt ws 1
  { tagValue := v.extractLsb' 0 3
    tagMask := m.extractLsb' 0 3
    windowValue := v.extractLsb' 4 2
    windowMask := m.extractLsb' 4 2
    channelValue := v.extractLsb' 8 5
    channelMask := m.extractLsb' 8 5
    kindValue := v.extractLsb' 16 4
    kindMask := m.extractLsb' 16 4
    qualityValue := v.extractLsb' 24 4
    qualityMask := m.extractLsb' 24 4 }

def readSecondKey (ws : List Word) : SecondKey :=
  let w0 := wordAt ws 0
  let w1 := wordAt ws 1
  let w2 := wordAt ws 2
  { pointValue := w0.extractLsb' 0 4
    pointMask := w0.extractLsb' 16 4
    roleValue := w0.extractLsb' 8 2
    roleMask := w0.extractLsb' 24 2
    rangeValue := w1.extractLsb' 0 8
    rangeMask := w1.extractLsb' 8 8
    bandValue := w1.extractLsb' 16 7
    bandMask := w1.extractLsb' 24 7
    availableValue := w2.extractLsb' 24 1
    availableMask := w2.extractLsb' 25 1
    conditionValue := w2.extractLsb' 0 8
    conditionMask := w2.extractLsb' 8 8
    qualityValue := w2.extractLsb' 16 4
    qualityMask := w2.extractLsb' 20 4 }

/-- The key admits kind 8 alone (R68). -/
def FirstKey.summaryOnly (k : FirstKey) : Bool := k.kindMask == 0xF#4 && k.kindValue == kindSummary

def Disposition.relays : Disposition → Bool
  | .relay | .processAndRelay => true
  | .process | .passOnly => false

/-- A FIRST entry under R87. -/
def readFirst (ws : List Word) : Option ClassEntry :=
  let key := readFirstKey ws
  let a := wordAt ws 2
  let target := bits a 4 4
  match roleOf (bits a 8 2), captureModeOf (bits a 13 2), counterOf (bits a 24 6) with
  | some role, some capture, some counter =>
    let disposition := dispositionOf (bits a 0 2)
    if bits a 16 7 < 32 && (!disposition.relays || key.summaryOnly) && (!key.summaryOnly || target < 8) then
      some (.first key {
        disposition := disposition
        target := Fin.ofNat 16 target
        role := role
        conversion := Fin.ofNat 32 (bits a 16 7)
        store := if bit a 12 then .converted else .raw
        counter := counter
        capture := capture })
    else none
  | _, _, _ => none

/-- A SECOND entry under R87. -/
def readSecond (ws : List Word) : Option ClassEntry :=
  let key := readSecondKey ws
  let a := wordAt ws 3
  let operand : BitVec 8 := a.extractLsb' 8 8
  match condModeOf (bits a 0 3), yesNoOf (bits a 16 2), yesNoOf (bits a 18 2), captureModeOf (bits a 20 2),
      counterOf (bits a 24 6) with
  | some mode, some accumulate, some matchInterrupt, some capture, some counter =>
    if operand &&& ~~~lookupConditions == 0 && !(key.roleMask == 3#2 && key.roleValue == 3#2) then
      some (.second key {
        mode := mode
        operand := operand
        accumulate := accumulate
        counter := counter
        capture := capture
        matchInterrupt := matchInterrupt })
    else none
  | _, _, _, _, _ => none

/-- The lookup code of a classification commit word: 1 FIRST, 2 SECOND (Tables 11-1, 11-7). -/
def lookupCode (ws : List Word) : Nat := bits (wordAt ws 7) 8 2

def readClass (ws : List Word) : Option ClassEntry :=
  if lookupCode ws = 1 then readFirst ws else if lookupCode ws = 2 then readSecond ws else none

/-- A number matches a value under a mask (R65). -/
def maskMatch {n : Nat} (value mask x : BitVec n) : Bool := (x ^^^ value) &&& mask == 0

/-- A FIRST key and target name point `p`: the key admits a kind other than 8 (R86). -/
def firstTargets (key : FirstKey) (target : Nat) (p : Fin 16) : Bool := target == p.val && !key.summaryOnly

/-- A SECOND key names point `p` (R86). -/
def secondTargets (key : SecondKey) (p : Fin 16) : Bool :=
  maskMatch key.pointValue key.pointMask (BitVec.ofNat 4 p.val)

/-- A loaded classification entry targets point `p` (R86). -/
def ClassEntry.targets (e : ClassEntry) (p : Fin 16) : Bool :=
  match e with
  | .first key action => firstTargets key action.target.val p
  | .second key _ => secondTargets key p

/-- The new content of a classification entry targets point `p` (R86), whatever its valid flag and whether or not its
other fields would be accepted. -/
def newContentTargets (ws : List Word) (p : Fin 16) : Bool :=
  if lookupCode ws = 1 then firstTargets (readFirstKey ws) (bits (wordAt ws 2) 4 4) p
  else if lookupCode ws = 2 then secondTargets (readSecondKey ws) p
  else false

/-- Every field of the entry is in range (R30 item 3). -/
def fieldsOk (pos : EntryPos) (ws : List Word) : Bool :=
  match pos with
  | .globalSettings => (readGlobal ws).isSome
  | .band => (readBand ws).isSome
  | .checker _ => (readChecker ws).isSome
  | .conversion _ => (readConversion ws).isSome
  | .point _ => (readPoint ws).isSome
  | .segment _ => (readSegment ws).isSome
  | .slot _ => (readSlot ws).isSome
  | .classification _ => (readClass ws).isSome

/-! ### Command words (Table 11-8) -/

def commandKind (w : Word) : Nat := bits w 0 4
def commandOnSegment (w : Word) : Bool := bit w 4
def commandTarget (w : Word) : Nat := bits w 8 8
def commandTag (w : Word) : BitVec 8 := w.extractLsb' 16 8

/-- Command kinds (Table 11-1). -/
def kindClearTotals : Nat := 1
def kindAckConditions : Nat := 2
def kindStartProving : Nat := 3
def kindEndProving : Nat := 4
def kindReloadImage : Nat := 5
def kindResyncDigest : Nat := 6
def kindArmCapture : Nat := 7
def kindClearFaults : Nat := 8
def kindResetSegment : Nat := 9

/-- Carried out while processing is off (R183). -/
def takenWhileOff (kind : Nat) : Bool := kind == kindReloadImage || kind == kindResyncDigest || kind == kindClearFaults

/-! ### Codes written (Table 11-1) -/

def Cause.mask : Cause → BitVec 6
  | .fault => 1 | .condition => 2 | .matched => 4 | .digest => 8 | .proving => 16 | .command => 32

def Role.code : Role → Nat
  | .velocity => 0 | .density => 1 | .pressure => 2 | .summary => 3

def CaptureMode.code : CaptureMode → Nat
  | .none => 0 | .next => 1 | .every => 2

def FaultReason.code : FaultReason → Nat
  | .ownedWrite => 1 | .controlFromOtherMaster => 2 | .subwordControl => 3 | .lockedControl => 4 | .lockBroken => 5
  | .invalidEntry => 6 | .provingProtected => 7 | .ownAccessFailed => 8 | .ringBusy => 9

def FaultKind.code : FaultKind → Nat
  | .read => 1 | .write => 2 | .pairRead => 3 | .pairWrite => 4 | .lockRead => 5 | .lockWrite => 6 | .vectorRead => 7
  | .publish => 8 | .digest => 9 | .outbound => 10 | .status => 11 | .fetch => 12

def TxnKind.faultKind : TxnKind → FaultKind
  | .read => .read | .write => .write | .pairRead => .pairRead | .pairWrite => .pairWrite | .lockRead => .lockRead
  | .lockWrite => .lockWrite | .vectorRead => .vectorRead

def OwnItem.faultKind : OwnItem → FaultKind
  | .publish _ _ => .publish | .digest _ _ => .digest | .outbound _ _ => .outbound | .status _ _ => .status
  | .fetch _ => .fetch

def sizeCode : Size → Nat
  | .byte => 0 | .half => 1 | .word => 2

def StatusReason.code : StatusReason → Nat
  | .none => 0 | .unknownCommand => 1 | .badTarget => 2 | .busy => 3 | .notOwner => 4 | .notRunning => 5
  | .provingActive => 6 | .disabled => 7 | .reset => 8

def DigestKind.code : DigestKind → Nat
  | .capture => 1 | .condition => 2 | .fault => 3 | .proving => 4 | .restart => 5

def ArithStep.code : ArithStep → Nat
  | .conversion => 1 | .flow => 2 | .concentration => 3 | .solidsRate => 4 | .integration => 5 | .summary => 6

def ProvingRun.code : ProvingRun → Nat
  | .idle => 0 | .armed => 1 | .running => 2 | .complete => 3 | .aborted => 4

def AbortReason.code : AbortReason → Nat
  | .none => 0 | .command => 1 | .stale => 2 | .reset => 3

def SegState.code : SegState → Nat
  | .disabled => 0 | .filling => 1 | .watching => 2

/-- The tag PART (R191). -/
def partTag : BitVec 4 := 8#4

def tagOf (t : Fin 8) : BitVec 4 := BitVec.ofNat 4 t.val

/-- A status word (Table 11-8, R185). -/
def statusWord (command : Word) (reason : StatusReason) (refused failed : Nat) : Word :=
  put (commandKind command) 0 ||| put reason.code 4 ||| put (commandTag command).toNat 8 ||| put refused 16
    ||| put failed 24

/-- Saturating count of 8 bits (section 1.6). -/
def saturate8 (n : Nat) : BitVec 8 := BitVec.ofNat 8 (min n 255)

end Sys2Proof.Machine
end

