-- ==== Sys2Proof/Machine/Records.lean ====
section
/-! DEFINITION. What is in effect (Tables 2-2, 2-4), and the words of the protected records, digest entries and summary
frames as the part writes them (Chapter 11, R193). -/
namespace Sys2Proof.Machine

/-- The global settings in effect: those of the loaded entry, or Table 2-4. -/
def State.inEffect (s : State) : GlobalSettings := s.settings.entry.getD GlobalSettings.unloaded

/-- R113: LOADED with enable on. -/
def entryEnabled (e : Option PointEntry) : Bool :=
  match e with
  | some e => e.enable
  | none => false

/-- The export flag of a loaded point entry. -/
def entryExports (e : Option PointEntry) : Bool :=
  match e with
  | some e => e.exportFlag
  | none => false

def slotEnabled (e : Option SlotEntry) : Bool :=
  match e with
  | some e => e.enable
  | none => false

def segmentEnabled (e : Option SegmentEntry) : Bool :=
  match e with
  | some e => e.enable
  | none => false

def State.pointEnabled (s : State) (p : Fin 16) : Bool := entryEnabled (s.engine.pointEntries.get p).entry

/-- The interrupt line (R188). -/
def State.irqLine (s : State) : Bool := s.irq != 0

/-! ### Protected records, with the sequence bits 0 (Tables 11-9 to 11-13, R193) -/

/-- A 16-bit count of point record word 11 (R193). -/
def count16 (n : Nat) : Nat := min n 65535

def pointWords (enabled : Bool) (r : PointRecord) : List Word :=
  [put r.conditions.toNat 16 ||| putBit r.hold 24 ||| putBit enabled 25 ||| putBit r.densityPresent 26
      ||| putBit r.window.volumeComplete 27 ||| putBit r.window.solidsComplete 28 ||| putBit r.window.velocitySeen 29
      ||| putBit r.closed.volumeComplete 30 ||| putBit r.closed.solidsComplete 31]
    ++ f64Words r.volumeTotal ++ f64Words r.solidsTotal ++ f64Words r.closed.volume ++ f64Words r.closed.solids
    ++ [r.closed.number, r.sampleCount,
      put (count16 r.window.samples) 0 ||| put (count16 r.window.excluded) 16,
      narrow r.velocity, narrow r.density, narrow r.pressure,
      put r.sticky.toNat 16 ||| put r.silentWindows 24]

def Difference.isGap : Difference → Bool
  | .gap => true
  | .value _ => false

/-- A ring entry as binary32: GAP as the canonical NaN (R193). -/
def ringWord : Option Difference → Word
  | some (.value d) => narrow d
  | some .gap => f32NaN
  | none => 0

/-- The GAP map: bit 16 + i for the i-th entry from the oldest (Table 11-10). -/
def gapMap : Nat → List Difference → Word
  | _, [] => 0
  | i, d :: ds => putBit d.isGap (16 + i) ||| gapMap (i + 1) ds

def differenceForm : Option Difference → Nat
  | none => 0 | some (.value _) => 1 | some .gap => 2

/-- The difference, or +0 when the form is none or GAP (R193). -/
def differenceValue : Option Difference → F64
  | some (.value d) => d
  | _ => 0

/-- The segment record (Table 11-10). Word 5 is 0 while the last comparison window is none (log 35). -/
def segmentWords (g : Segment) : List Word :=
  let newest := g.ring.reverse
  [put g.state.code 16 ||| put g.conditions.toNat 18 ||| put g.lag.length 21 ||| put g.ring.length 26]
    ++ f64Words g.sum ++ f64Words (differenceValue g.lastDifference)
    ++ [g.lastWindow.getD 0, put (differenceForm g.lastDifference) 0 ||| gapMap 0 g.ring]
    ++ (List.range 8).map (fun i => ringWord newest[i]?)
    ++ [put g.loss 16 ||| put g.gain 20 ||| put g.clear 24]

/-- Each field's value is the owner's when the content is taken (R177). -/
def statisticsWords (s : State) : List Word :=
  [putBit s.inEffect.enable 16 ||| put s.path.baseStraps.toNat 20 ||| put s.path.controlTag.toNat 24,
    s.asm.closed, s.engine.processed, s.asm.overrun, s.asm.checkFailed, s.asm.torn, s.engine.droppedByReset,
    s.engine.unclassified, s.engine.toDisabledPoint, s.balance.relayed, s.balance.relayDropped, s.pub.digestLost,
    s.pub.digestAbandoned, s.engine.lateWindows, s.engine.windowNumber,
    put s.engine.workQueue.length 0 ||| put s.pub.queue.length 8 ||| put s.pub.digest.occupied.length 16]
    ++ s.cls.hits.toList ++ List.replicate 16 0

def provingWords (r : ProvingState) : List Word :=
  [put r.run.code 16 ||| put r.abort.code 20 ||| putBit r.invalid 24 ||| putBit r.incomplete 25,
    put r.number.toNat 0 ||| put r.owner.toNat 16 ||| put r.test.val 24 ||| put r.reference.val 28,
    put r.requested.toNat 0 ||| put r.elapsed.toNat 8,
    r.firstWindow]
    ++ f64Words r.testVolume ++ f64Words r.referenceVolume ++ [r.testCount, r.referenceCount]
    ++ f64Words r.factor ++ f64Words r.deviation ++ [0, 0]

/-- Words 1-3 of the access fault record. -/
def AccessFault.words (f : AccessFault) : List Word :=
  [put f.tag.toNat 0 ||| put f.kind.code 8 ||| put (sizeCode f.size) 12 ||| put f.reason.code 16,
    f.addr.setWidth 32, 0]

/-- Words 1-3 of the arithmetic fault record. -/
def ArithFault.words (f : ArithFault) : List Word :=
  [put f.target.toNat 0 ||| put f.role.code 4 ||| put f.channel.toNat 8 ||| put f.sequence.toNat 16
      ||| put f.step.code 24,
    f.raw, f.kinds.setWidth 32]

def faultRecordWords (held : Bool) (further : BitVec 8) (captured : List Word) : List Word :=
  [putBit held 16 ||| put further.toNat 24] ++ captured ++ [0, 0, 0, 0]

def accessFaultWords (f : Option AccessFault) : List Word :=
  match f with
  | some f => faultRecordWords true f.further f.words
  | none => faultRecordWords false 0 [0, 0, 0]

def arithFaultWords (f : Option ArithFault) : List Word :=
  match f with
  | some f => faultRecordWords true f.further f.words
  | none => faultRecordWords false 0 [0, 0, 0]

/-- The content of a protected record as it stands (R167). -/
def recordContent (s : State) (r : Fin 28) : List Word :=
  if r.val < 16 then
    let p := Fin.ofNat 16 r.val
    pointWords (s.pointEnabled p) (s.engine.points.get p)
  else if r.val < 24 then segmentWords (s.balance.segments.get (Fin.ofNat 8 (r.val - 16)))
  else if r.val = 24 then statisticsWords s
  else if r.val = 25 then provingWords s.proving
  else if r.val = 26 then accessFaultWords s.path.fault
  else arithFaultWords s.arith.fault

def pointRecordNo (p : Fin 16) : Fin 28 := Fin.ofNat 28 p.val
def segmentRecordNo (g : Fin 8) : Fin 28 := Fin.ofNat 28 (16 + g.val)
def statisticsRecordNo : Fin 28 := 24
def provingRecordNo : Fin 28 := 25
def accessFaultRecordNo : Fin 28 := 26
def arithFaultRecordNo : Fin 28 := 27

/-! ### Digest entries (Tables 11-14, 11-15) -/

def digestHead (kind : DigestKind) (lost : BitVec 8) (sequence : BitVec 16) : Word :=
  put kind.code 0 ||| put lost.toNat 8 ||| put sequence.toNat 16

/-- The sequence that a digest head carries. -/
def digestSequence (head : Word) : BitVec 16 := head.extractLsb' 16 16

/-- The release word (R171). -/
def releaseWord (s : State) : Word :=
  put s.timer.count.toNat 0 ||| put (s.engine.windowNumber.toNat % 65536) 16

/-- The eight words of a digest entry. -/
def digestWords (head : Word) (body : List Word) (release : Word) : List Word :=
  [head] ++ (List.range 6).map (wordAt body) ++ [release]

def captureFirstWord (second : Bool) (mode : CaptureMode) (entry : Fin 64) (generation : BitVec 8) : Word :=
  putBit second 0 ||| put mode.code 1 ||| put entry.val 8 ||| put generation.toNat 16

def captureSecondWord (f : FrameItem) : Word :=
  put f.tag.val 0 ||| put f.window.val 3 ||| put f.kind.toNat 5 ||| put (headChannel f.head).toNat 9
    ||| put (headQuality f.head).toNat 14 ||| put (headSequence f.head).toNat 24

/-- What an incomplete mark or a frame is for (R60). -/
inductive Target where
  | none
  | point (p : Fin 16)
  | slot (r : Fin 8)
deriving DecidableEq, Repr

/-- R60, R68: the target of a frame. -/
def targetOf (summary : Bool) (lookup : Option LookupResult) : Target :=
  match lookup with
  | none => .none
  | some l =>
    match l.action.disposition with
    | .process | .processAndRelay =>
      if summary then
        if l.action.target.val < 8 then .slot (Fin.ofNat 8 l.action.target.val) else .none
      else .point l.action.target
    | .passOnly | .relay => .none

/-- Target form, target and role of a capture (Table 11-15). -/
def captureTargetWord (t : Target) (role : Role) : Word :=
  (match t with
    | .none => 0
    | .point p => put 1 0 ||| put p.val 4
    | .slot r => put 2 0 ||| put r.val 4) ||| put role.code 8

def captureTail (f : FrameItem) (conditions : Word) : List Word :=
  if f.isSummary then
    [put f.station.toNat 0 ||| put f.upstreamPoint.toNat 8 ||| put f.hops.toNat 16, f.summaryWindow,
      narrow f.summaryVolume]
  else [f.timeStamp, narrow (f.value.getD f64NaN), conditions]

/-- Body of a first-lookup capture (R80). -/
def firstCaptureBody (f : FrameItem) (l : LookupResult) : List Word :=
  [captureFirstWord false l.action.capture l.index l.generation, captureSecondWord f,
    captureTargetWord (targetOf f.isSummary f.lookup) (if f.isSummary then .summary else l.action.role)]
    ++ captureTail f 0

/-- The key of a second lookup (R73). -/
structure SampleKey where
  point : Fin 16
  role : Role
  range : BitVec 8
  band : Nat
  available : Bool
  conditions : BitVec 8
  quality : BitVec 4
deriving DecidableEq, Repr

/-- Body of a second-lookup capture (R80). -/
def secondCaptureBody (f : FrameItem) (key : SampleKey) (entry : Fin 64) (generation : BitVec 8) (mode : CaptureMode) :
    List Word :=
  [captureFirstWord true mode entry generation, captureSecondWord f,
    captureTargetWord (.point key.point) key.role ||| put key.range.toNat 16 ||| put key.band 24
      ||| putBit key.available 27]
    ++ captureTail f (key.conditions.setWidth 32)

/-- Origins of a CONDITION record (Table 11-15). -/
structure Origins where
  lookup : Option (Fin 64)
  engine : Bool
  command : Bool
  balance : Bool
  commit : Bool
deriving DecidableEq, Repr

def Origins.none : Origins := ⟨.none, false, false, false, false⟩

def Origins.word (o : Origins) : Word :=
  (match o.lookup with
    | some e => putBit true 16 ||| put e.val 24
    | .none => 0)
    ||| putBit o.engine 17 ||| putBit o.command 18 ||| putBit o.balance 19 ||| putBit o.commit 20

/-- Body of a point's CONDITION record (R118). -/
def pointConditionBody (p : Fin 16) (holdAfter : Bool) (o : Origins) (window : Word) (before after : BitVec 8) :
    List Word :=
  [put p.val 4 ||| putBit holdAfter 8 ||| o.word, window, put before.toNat 0 ||| put after.toNat 8]

/-- Body of a segment's CONDITION record (R146). -/
def segmentConditionBody (g : Fin 8) (o : Origins) (window : Word) (before : BitVec 3) (after : Segment) : List Word :=
  [put 1 0 ||| put g.val 4 ||| o.word, window, put before.toNat 0 ||| put after.conditions.toNat 8, narrow after.sum,
    ringWord after.lastDifference]

/-- Body of a FAULT record: the source and words 1-3 of the record as filled (R21, R106). -/
def faultBody (arithmetic : Bool) (captured : List Word) : List Word := putBit arithmetic 0 :: captured

/-- Body of a PROVING record (R153). -/
def provingBody (r : ProvingState) (window : Word) : List Word :=
  [put r.number.toNat 0 ||| put r.run.code 16 ||| put r.abort.code 20,
    put r.test.val 0 ||| put r.reference.val 4 ||| put r.elapsed.toNat 8, window]

/-- Body of a RESTART record (R175). -/
def restartBody (busReset : Bool) (window : Word) (returned torn : Nat) : List Word :=
  [putBit busReset 0, window, put returned 0 ||| put torn 16]

/-! ### Summary frames written (R135, R136) -/

/-- An outbound summary of a closed window (R135). -/
def summaryFrame (station : BitVec 5) (p : Fin 16) (w : ClosedWindow) : List Word :=
  let body := [put kindSummary.toNat 0 ||| put p.val 4 ||| put (w.number.toNat % 256) 16, station.setWidth 32,
      put p.val 0 ||| putBit (w.volumeComplete && w.solidsComplete) 16, w.number]
    ++ f64Words w.volume ++ [narrow w.solids]
  body ++ [checkWord body]

/-- A relayed summary (R136): words 0-6 as received with the hop count raised by 1, and the check word recomputed. The hop
count is below the hop limit, which is at most 7, so it does not leave its field. -/
def relayFrame (received : List Word) : List Word :=
  let body := (List.range 7).map (fun i => if i = 2 then wordAt received 2 + put 1 8 else wordAt received i)
  body ++ [checkWord body]

end Sys2Proof.Machine
end

