-- ==== Sys2Proof/Machine/Ops.lean ====
section
/-! DEFINITION. The operations the blocks share: causes, the own-access queue and its places, publication requests,
digest reservations, captures into the fault records, completions, marks, and the region decode. -/
namespace Sys2Proof.Machine

/-! ### Interrupt causes (R187) -/

/-- A report of a cause's event: it enters the pending set when it is enabled. -/
def raiseCause (c : Cause) (s : State) : State :=
  { s with irq := s.irq ||| (c.mask &&& s.inEffect.causeEnable) }

/-! ### The own-access queue (R162, R164, R18) -/

/-- An item joins the queue; yield turns on at 24 items. -/
def joinQueue (it : OwnItem) (s : State) : State :=
  { s with
    pub := { s.pub with queue := s.pub.queue ++ [it] }
    path := { s.path with yield := s.path.yield || decide (Config.yieldOn ≤ s.pub.queue.length + 1) } }

/-- The oldest item leaves the queue; yield turns off at 8 items. -/
def leaveQueue (s : State) : State :=
  { s with
    pub := { s.pub with queue := s.pub.queue.tail, begun := none }
    path := { s.path with yield := s.path.yield && decide (Config.yieldOff < s.pub.queue.tail.length) } }

/-- The item a waiting producer offers (R164), besides a held DIGEST item. -/
def engineOffer (s : State) : Option Offer := s.engine.job.bind (·.offer)

/-- The queue is not full, so that an item offered now joins at once (R164). An item offered between the freeing of a
place and its giving takes that place (log 6). -/
def hasRoom (s : State) : Bool := decide (s.pub.queue.length < Config.ownQueuePlaces)

/-! ### Publication requests (R167) -/

def setRecord (r : Fin 28) (x : PubRecord) (s : State) : State :=
  { s with pub := { s.pub with records := upd s.pub.records r x } }

/-- The queued, unbegun PUBLISH items of record `r` take this content; the begun item stands first and is skipped. -/
def replaceContent (r : Fin 28) (content : List Word) (begun : Bool) (queue : List OwnItem) : List OwnItem :=
  match begun, queue with
  | true, it :: rest => it :: replaceContent r content false rest
  | _, queue => queue.map (fun it =>
      match it with
      | .publish r' c => if r' = r then .publish r content else .publish r' c
      | other => other)

/-- The owner of record `r` asks for a publication. -/
def requestPublication (r : Fin 28) (s : State) : State :=
  let x := s.pub.records.get r
  match x.mark with
  | .none =>
    if hasRoom s then setRecord r { x with mark := .queued } (joinQueue (.publish r (recordContent s r)) s)
    else setRecord r { x with mark := .owed } s
  | .queued =>
    { s with pub := { s.pub with
        queue := replaceContent r (recordContent s r) s.pub.begun.isSome s.pub.queue } }
  | .owed => s

/-! ### Digest reservations (R171) -/

/-- Who asks for a reservation: the engine's processing waits while the item is held back, other requesters go on
(R164). -/
inductive Requester where
  | engine | other
deriving DecidableEq, Repr

/-- A DIGEST item joins at once when the queue is not full and no older one is held back: DIGEST items join in the order
of their reservations (R164). -/
def digestRoom (s : State) : Bool := hasRoom s && s.pub.heldDigests.isEmpty

/-- The DIGEST item of a reserved entry joins, or is held back in reservation order (R164). -/
def offerDigest (by_ : Requester) (position : Nat) (words : List Word) (s : State) : State :=
  if digestRoom s then joinQueue (.digest position words) s
  else { s with pub := { s.pub with
      heldDigests := s.pub.heldDigests ++ [⟨position, words, by_ == .engine⟩] } }

/-- The position the next reservation takes (R170). -/
def nextPosition (s : State) : Nat :=
  (s.pub.digest.oldest + s.pub.digest.occupied.length) % s.inEffect.ringSize

/-- A reservation finds a FREE entry and no pending ring-size change. -/
def canReserve (s : State) : Bool :=
  !s.pub.digest.sizePending && decide (s.pub.digest.occupied.length < s.inEffect.ringSize)

/-- The bookkeeping of a kept reservation. -/
def keepReservation (s : State) : State :=
  let d := s.pub.digest
  { s with pub := { s.pub with digest := { d with
      occupied := d.occupied ++ [⟨false, d.nextSequence, d.lost⟩]
      nextSequence := d.nextSequence + 1
      lost := 0 } } }

/-- A lost reservation: the lost count saturates at 255, DIGEST LOST wraps. -/
def loseReservation (s : State) : State :=
  let d := s.pub.digest
  { s with pub := { s.pub with
      digest := { d with lost := saturate8 (d.lost.toNat + 1) }
      digestLost := s.pub.digestLost + 1 } }

/-- After either outcome DIGEST is set when the occupancy is at or above the threshold in effect. -/
def checkThreshold (s : State) : State :=
  if s.inEffect.threshold ≤ s.pub.digest.occupied.length then raiseCause .digest s else s

/-- A request to reserve a digest record. -/
def reserve (by_ : Requester) (kind : DigestKind) (body : List Word) (s : State) : State :=
  let d := s.pub.digest
  if canReserve s then
    let words := digestWords (digestHead kind d.lost d.nextSequence) body (releaseWord s)
    checkThreshold (offerDigest by_ (nextPosition s) words (keepReservation s))
  else checkThreshold (loseReservation s)

/-! ### The fault records (R21, R106) -/

/-- A capture request to the access fault record (R21): the cause, then the reservation, then the publication, in the
order in which the rule lists them (log 36). -/
def captureAccess (tag : BitVec 4) (kind : FaultKind) (size : Size) (addr : Addr) (reason : FaultReason) (s : State) :
    State :=
  match s.path.fault with
  | none =>
    let f : AccessFault := ⟨tag, kind, size, addr, reason, 0⟩
    requestPublication accessFaultRecordNo
      (reserve .other .fault (faultBody false f.words)
        (raiseCause .fault { s with path := { s.path with fault := some f } }))
  | some f =>
    if f.further = 255 then s
    else requestPublication accessFaultRecordNo
      { s with path := { s.path with fault := some { f with further := f.further + 1 } } }

/-- An abandonment is offered to the arithmetic fault record (R106), in the same order (log 36). -/
def offerArithFault (target : BitVec 4) (role : Role) (item : FrameItem) (step : ArithStep) (kinds : Kinds) (s : State) :
    State :=
  match s.arith.fault with
  | none =>
    let f : ArithFault := ⟨target, role, headChannel item.head, headSequence item.head, item.raw, step, kinds, 0⟩
    requestPublication arithFaultRecordNo
      (reserve .other .fault (faultBody true f.words)
        (raiseCause .fault { s with arith := { s.arith with fault := some f } }))
  | some f =>
    if f.further = 255 then s
    else requestPublication arithFaultRecordNo
      { s with arith := { s.arith with fault := some { f with further := f.further + 1 } } }

/-! ### Transactions -/

/-- The current transaction is given its completion (R1, R2). -/
def complete (code : Code) (data : List Word) (s : State) : State :=
  match s.path.current with
  | none => s
  | some c => { s with path := { s.path with current := none, completion := some ⟨c.txn.tag, code, data⟩ } }

/-- A refusal by the Path Controller (R21): captured, and answered FAULT. The size of a READ or WRITE is its own and
that of every other kind is word. -/
def refuse (t : Transaction) (reason : FaultReason) (s : State) : State :=
  complete .fault [] (captureAccess (tagOf t.tag) t.kind.faultKind t.size t.addr reason s)

/-- A refused or failed commit or command write (R21): size word, the control master's tag. -/
def refuseHeld (t : Transaction) (reason : FaultReason) (s : State) : State :=
  complete .fault [] (captureAccess (s.path.controlTag.setWidth 4) t.kind.faultKind .word t.addr reason s)

def setPhase (p : Phase) (s : State) : State :=
  match s.path.current with
  | none => s
  | some c => { s with path := { s.path with current := some { c with phase := p } } }

def freePort (s : State) : State := { s with path := { s.path with port := none } }

/-! ### Region decode (R4) -/

/-- The base of the control area, n × 1 MiB (R26). -/
def controlBase (s : State) : Addr := s.path.baseStraps ++ 0#20

/-- The word that contains an address. -/
def wordOf (a : Addr) : Addr := BitVec.ofNat 24 (a.toNat / 4 * 4)

/-- The word after, modulo 2^24. -/
def nextWord (a : Addr) : Addr := a + 4

/-- The offset of an address in the control area, if it lies there: the area is the 0x8000 bytes from its base, so the nine
high bits of an address decide. -/
def controlOffset (s : State) (a : Addr) : Option Nat :=
  if a.extractLsb' 15 9 = s.path.baseStraps ++ 0#5 then some (a.extractLsb' 0 15).toNat else none

def inWindow (w : SampleWindow) (a : Addr) : Bool :=
  w.enable && decide (w.base.toNat ≤ a.toNat) && decide (a.toNat < w.base.toNat + w.length.toNat)

/-- The lowest-numbered enabled window that covers an address. -/
def coveringWindow (ws : Vector SampleWindow 4) (a : Addr) : Option (Fin 4) :=
  if inWindow (ws.get 0) a then some 0
  else if inWindow (ws.get 1) a then some 1
  else if inWindow (ws.get 2) a then some 2
  else if inWindow (ws.get 3) a then some 3
  else none

/-- The sample window a word belongs to under the given windows; the control area comes first. -/
def windowUnder (s : State) (ws : Vector SampleWindow 4) (a : Addr) : Option (Fin 4) :=
  match controlOffset s a with
  | some _ => none
  | none => coveringWindow ws a

def windowOf (s : State) (a : Addr) : Option (Fin 4) := windowUnder s s.inEffect.windows a

/-- An owned address of the control area (R4). -/
def isOwned (s : State) (a : Addr) : Bool :=
  match controlOffset s a with
  | some off => ownedOffset s.inEffect.ringSize off
  | none => false

def isControl (s : State) (a : Addr) : Bool := (controlOffset s a).isSome

/-- The words a transaction addresses (R4). -/
def wordsOf (t : Transaction) : List Addr :=
  match t.kind with
  | .pairRead | .pairWrite => [wordOf t.addr, nextWord (wordOf t.addr)]
  | .read | .write | .lockRead | .lockWrite | .vectorRead => [wordOf t.addr]

/-- An address of the control area. -/
def controlAddr (s : State) (off : Nat) : Addr := controlBase s + BitVec.ofNat 24 off

/-! ### Marks (R61, R116) -/

def setPoint (p : Fin 16) (r : PointRecord) (s : State) : State :=
  { s with engine := { s.engine with points := upd s.engine.points p r } }

def setSlot (r : Fin 8) (x : RemoteSlot) (s : State) : State :=
  { s with engine := { s.engine with slots := upd s.engine.slots r x } }

def PointRecord.incomplete (r : PointRecord) : PointRecord :=
  { r with window := { r.window with volumeComplete := false, solidsComplete := false } }

/-- The current window of the point is made incomplete. -/
def spoilPoint (p : Fin 16) (s : State) : State := setPoint p (s.engine.points.get p).incomplete s

def spoilSlot (r : Fin 8) (s : State) : State := setSlot r { s.engine.slots.get r with allComplete := false } s

/-- A mark: discarded at a disabled point or slot. -/
def mark (t : Target) (s : State) : State :=
  match t with
  | .none => s
  | .point p => if s.pointEnabled p then spoilPoint p s else s
  | .slot r => if slotEnabled (s.engine.slotEntries.get r).entry then spoilSlot r s else s

/-! ### Assembly records -/

def setAssembly (tag : Fin 8) (r : Option OpenFrame) (s : State) : State :=
  { s with asm := { s.asm with records := upd s.asm.records tag r } }

/-- A tear (R49): the record becomes EMPTY, TORN is raised and the target marked. An EMPTY record is left as it is. -/
def tear (tag : Fin 8) (s : State) : State :=
  match s.asm.records.get tag with
  | none => s
  | some f =>
    let s1 := setAssembly tag none s
    mark (targetOf (f.kind == kindSummary) f.lookup) { s1 with asm := { s1.asm with torn := s1.asm.torn + 1 } }

/-! ### Fetches (R12, R20, R42) -/

/-- A fetch of `total` words, none read yet. -/
def Fetch.start (total : Nat) : Fetch := ⟨total, [], 0, false⟩

def Fetch.complete (f : Fetch) : Bool := decide (f.total ≤ f.got.length)

/-- The access at hand is a single READ: a re-read, or a last odd word. -/
def Fetch.readsOne (f : Fetch) : Bool := f.single || f.got.length + 1 == f.total

/-- The access at hand, for words that start at `base`. -/
def Fetch.access (f : Fetch) (base : Addr) : Access :=
  ⟨if f.readsOne then .read else .pairRead, .word, base + BitVec.ofNat 24 (4 * f.got.length), 0, 0⟩

/-- What a response does to a fetch. -/
inductive FetchStep where
  | goesOn (f : Fetch)
  | fails
deriving DecidableEq, Repr

/-- The access is retried, up to 8 attempts in all. -/
def Fetch.retry (f : Fetch) : FetchStep :=
  if f.attempts + 1 < Config.attempts then .goesOn { f with attempts := f.attempts + 1 } else .fails

/-- Memory's response to the access at hand. A response that carries RETRY and FAULT together is RETRY (R5). When the
first word of a pair is DONE and the second is not, the second is read again singly and the pair attempt counts as its
first. A first word that is not DONE decides for the pair, whatever the second word's answer (log 38). -/
def Fetch.respond (f : Fetch) (first second : Response) : FetchStep :=
  if f.readsOne then
    match first.answer with
    | .done => .goesOn { f with got := f.got ++ [first.data], attempts := 0, single := false }
    | .retry | .retryFault => f.retry
    | .fault => .fails
  else
    match first.answer with
    | .done =>
      if second.answer = .done then
        .goesOn { f with got := f.got ++ [first.data, second.data], attempts := 0, single := false }
      else .goesOn { f with got := f.got ++ [first.data], attempts := 1, single := true }
    | .retry | .retryFault => f.retry
    | .fault => .fails

end Sys2Proof.Machine
end

