-- ==== Sys2Proof/Machine/Classifier.lean ====
section
/-! DEFINITION. The Classifier (Chapter 4): key matching, both lookups, range checkers, band, hit counters and armed
flags. -/
namespace Sys2Proof.Machine

/-- The key of the first lookup (R67). -/
structure HeadKey where
  tag : Fin 8
  window : Fin 4
  head : Word
deriving DecidableEq, Repr

/-- A FIRST key matches (R65, Table 4-2). -/
def FirstKey.fits (k : FirstKey) (h : HeadKey) : Bool :=
  maskMatch k.tagValue k.tagMask (BitVec.ofNat 3 h.tag.val)
    && maskMatch k.windowValue k.windowMask (BitVec.ofNat 2 h.window.val)
    && maskMatch k.channelValue k.channelMask (headChannel h.head)
    && maskMatch k.kindValue k.kindMask (headKind h.head)
    && maskMatch k.qualityValue k.qualityMask (headQuality h.head)

/-- Members 1 to 7 of the band thermometer, member i at bit i - 1 (R72, Table 11-7). -/
def thermometer (band : Nat) : BitVec 7 := BitVec.ofNat 7 (2 ^ band - 1)

/-- A SECOND key matches (R65, Table 4-2). -/
def SecondKey.fits (k : SecondKey) (x : SampleKey) : Bool :=
  maskMatch k.pointValue k.pointMask (BitVec.ofNat 4 x.point.val)
    && maskMatch k.roleValue k.roleMask (BitVec.ofNat 2 x.role.code)
    && maskMatch k.rangeValue k.rangeMask x.range
    && maskMatch k.bandValue k.bandMask (thermometer x.band)
    && maskMatch k.availableValue k.availableMask (BitVec.ofBool x.available)
    && maskMatch k.conditionValue k.conditionMask x.conditions
    && maskMatch k.qualityValue k.qualityMask x.quality

/-- The matching FIRST entry of lowest index (R66), searched over the given indexes. -/
def firstAmong (entries : Vector (Loaded ClassEntry) 64) (h : HeadKey) : List (Fin 64) → Option LookupResult
  | [] => none
  | i :: rest =>
    match (entries.get i).entry with
    | some (.first key action) =>
      if key.fits h then some ⟨i, (entries.get i).generation, action⟩ else firstAmong entries h rest
    | _ => firstAmong entries h rest

/-- A second-lookup match. -/
structure SecondResult where
  index : Fin 64
  generation : BitVec 8
  action : SecondAction
deriving DecidableEq, Repr

/-- The matching SECOND entry of lowest index (R66). -/
def secondAmong (entries : Vector (Loaded ClassEntry) 64) (x : SampleKey) : List (Fin 64) → Option SecondResult
  | [] => none
  | i :: rest =>
    match (entries.get i).entry with
    | some (.second key action) =>
      if key.fits x then some ⟨i, (entries.get i).generation, action⟩ else secondAmong entries x rest
    | _ => secondAmong entries x rest

/-- The 64 indexes in ascending order. -/
def entryIndexes : List (Fin 64) := (List.range 64).map (Fin.ofNat 64)

def firstLookup (s : State) (h : HeadKey) : Option LookupResult := firstAmong s.cls.entries h entryIndexes
def secondLookup (s : State) (x : SampleKey) : Option SecondResult := secondAmong s.cls.entries x entryIndexes

/-- The default action (R75). -/
def SecondAction.default : SecondAction := ⟨.none, 0, true, none, .none, false⟩

/-! ### Quantities, range mask and band (R70 to R72) -/

/-- The quantities of a sample that are available (Table 4-5). -/
structure Quantities where
  role : Role
  value : F64
  density : Option F64
  concentration : Option F64
  flow : Option F64
  solidsRate : Option F64
deriving DecidableEq, Repr

def Quantities.get (q : Quantities) : Quantity → Option F64
  | .roleValue => some q.value
  | .velocity => if q.role = .velocity then some q.value else none
  | .density => q.density
  | .concentration => q.concentration
  | .flowRate => q.flow
  | .solidsRate => q.solidsRate
  | .pressure => if q.role = .pressure then some q.value else none

/-- R70: `fLe` is false of a NaN. -/
def checkerMember (c : Option RangeChecker) (q : Quantities) : Bool :=
  match c with
  | none => false
  | some c =>
    match q.get c.quantity with
    | none => false
    | some x => fLe (widen c.low) x && fLe x (widen c.high)

/-- R71. -/
def rangeMask (s : State) (q : Quantities) : BitVec 8 :=
  let m (i : Fin 8) : Nat := (checkerMember (s.cls.checkers.get i).entry q).toNat
  BitVec.ofNat 8 (m 0 + 2 * m 1 + 4 * m 2 + 8 * m 3 + 16 * m 4 + 32 * m 5 + 64 * m 6 + 128 * m 7)

/-- The sample has a concentration that is not NaN (R72). -/
def concentrationAvailable (q : Quantities) : Bool :=
  match q.concentration with
  | none => false
  | some cv => !f64IsNaN cv

/-- R72: the thresholds at or below the concentration. -/
def bandOf (band : Option Band) (q : Quantities) : Nat :=
  match band, q.concentration with
  | some b, some cv => if f64IsNaN cv then 0 else b.thresholds.toList.countP (fun t => fLe (widen t) cv)
  | _, _ => 0

/-- The second-lookup key (R73). -/
def sampleKey (s : State) (p : Fin 16) (item : FrameItem) (q : Quantities) : SampleKey where
  point := p
  role := q.role
  range := rangeMask s q
  band := bandOf s.cls.band.entry q
  available := concentrationAvailable q
  conditions := (s.engine.points.get p).conditions
  quality := headQuality item.head

/-! ### Hit counters and armed flags (R77 to R83) -/

def raiseHit (c : Option (Fin 32)) (s : State) : State :=
  match c with
  | none => s
  | some i => { s with cls := { s.cls with hits := upd s.cls.hits i (s.cls.hits.get i + 1) } }

def setArmed (e : Fin 64) (b : Bool) (s : State) : State :=
  { s with cls := { s.cls with armed := upd s.cls.armed e b } }

/-- The entry is loaded as a FIRST entry. -/
def isFirst : Option ClassEntry → Bool
  | some (.first _ _) => true
  | _ => false

/-- A first-lookup action captures (R81, R83): the carried mode decides, and NEXT tests the entry as loaded. -/
def firstCaptures (s : State) (l : LookupResult) : Bool :=
  match l.action.capture with
  | .none => false
  | .every => true
  | .next =>
    isFirst (s.cls.entries.get l.index).entry && s.cls.armed.get l.index
      && (s.cls.entries.get l.index).generation == l.generation

/-- A second-lookup match captures (R81, R83). -/
def secondCaptures (s : State) (r : SecondResult) : Bool :=
  match r.action.capture with
  | .none => false
  | .every => true
  | .next => s.cls.armed.get r.index

/-- A NEXT capture disarms its entry (R83). -/
def disarm (mode : CaptureMode) (e : Fin 64) (s : State) : State :=
  match mode with
  | .next => setArmed e false s
  | .none | .every => s

def ClassEntry.captureMode : ClassEntry → CaptureMode
  | .first _ a => a.capture
  | .second _ a => a.capture

end Sys2Proof.Machine
end

