-- ==== Sys2Proof/Machine/Assembler.lean ====
section
/-! DEFINITION. The Frame Assembler (Chapter 3): the roles of sample-window words, the work done while a word is held,
and what its completion does. -/
namespace Sys2Proof.Machine

/-- The expected address of an OPEN record (R47). -/
def OpenFrame.expected (f : OpenFrame) : Addr := f.address + BitVec.ofNat 24 (4 * f.next)

/-- The store form CONVERTED acts on this frame (R55): matched, and four words long. -/
def OpenFrame.storesConverted (f : OpenFrame) : Bool :=
  f.length == 4 && (match f.lookup with
    | some l => l.action.store == .converted
    | none => false)

/-- A word taken by the Assembler: the word memory is to receive, its effect at DONE, and whether it tears the record
its master has. -/
structure Taken where
  stored : Word
  effect : WordEffect
  tears : Bool
deriving DecidableEq, Repr

/-- The value word (R53). -/
def takeValue (s : State) (f : OpenFrame) (w : Word) : Taken :=
  match f.lookup with
  | none => ⟨w, .converts w w none 0, false⟩
  | some l =>
    let r := convertValue (s.arith.conversions.get l.action.conversion).entry w
    let stored := if f.storesConverted then narrow r.value else w
    ⟨stored, .converts w stored (some r.value) r.kinds, false⟩

/-- The check word (R56): verified over the received words; under CONVERTED recomputed over the stored ones. -/
def takeCheck (f : OpenFrame) (w : Word) : Taken :=
  let good := w == checkWord f.received
  let stored :=
    if f.storesConverted then
      let c := checkWord [f.storedHead, wordAt f.received 1, f.storedValue.getD (wordAt f.received 2)]
      if good then c else c + 1
    else w
  ⟨stored, .closes good, false⟩

/-- A continuation is taken by the rule for its word (R48, R52, R53, R56). -/
def takeContinuation (s : State) (f : OpenFrame) (w : Word) : Taken :=
  if f.next + 1 = f.length then takeCheck f w
  else if f.length = 4 ∧ f.next = 2 then takeValue s f w
  else ⟨w, .advances w, false⟩

/-- The frame fits its window (R50 item 2). -/
def frameFits (w : SampleWindow) (a : Addr) (length : Nat) : Bool :=
  decide (a.toNat + 4 * length ≤ w.base.toNat + w.length.toNat)

/-- A head (R50): the first lookup, the fit and the stored head. -/
def takeHead (s : State) (tag : Fin 8) (w : Fin 4) (a : Addr) (h : Word) (tears : Bool) : Taken :=
  let lookup := firstLookup s ⟨tag, w, h⟩
  let kind := headKind h
  let length := frameLength kind
  let fits := frameFits (s.inEffect.windows.get w) a length
  let frame : OpenFrame := ⟨a, w, kind, length, 1, [h], h, none, lookup, none, 0⟩
  let stored := if fits && frame.storesConverted then headConverted h else h
  ⟨stored, .opens { frame with storedHead := stored } fits, tears⟩

/-- The role of a word-sized write word in sample window `w`, against the given record of its master (R48). -/
def takeWord (s : State) (tag : Fin 8) (record : Option OpenFrame) (w : Fin 4) (a : Addr) (word : Word) : Taken :=
  match record with
  | some f =>
    if a = f.expected then takeContinuation s f word
    else if a.toNat % 16 = 0 ∧ headKind word ≠ 0 ∧ s.inEffect.enable = true then takeHead s tag w a word true
    else ⟨word, .nothing, true⟩
  | none =>
    if a.toNat % 16 = 0 ∧ headKind word ≠ 0 ∧ s.inEffect.enable = true then takeHead s tag w a word false
    else ⟨word, .nothing, false⟩

/-- What an effect at DONE makes of the record (R51, R52, R54, R57). -/
def effectOnRecord (e : WordEffect) (record : Option OpenFrame) : Option OpenFrame :=
  match e with
  | .nothing => record
  | .opens f fits => if fits then some f else none
  | .advances w =>
    record.map (fun f => { f with received := f.received ++ [w], next := f.next + 1 })
  | .converts w stored value kinds =>
    record.map (fun f => { f with
      received := f.received ++ [w], storedValue := some stored, converted := value, carried := kinds, next := 3 })
  | .closes _ => none

/-! ### Holding a sample-window write (R9, R59) -/

/-- The first word of a write: taken against its master's record; a tear takes effect on arrival. A word that lies in no
sample window takes no role and passes unchanged. -/
def holdFirst (tag : Fin 8) (a : Addr) (word : Word) (s : State) : Word × List WordHold × State :=
  match windowOf s a with
  | none => (word, [], s)
  | some w =>
    let t := takeWord s tag (s.asm.records.get tag) w a word
    (t.stored, [⟨a, false, false, t.effect⟩], if t.tears then tear tag s else s)

/-- The record the second word of a pair is taken against: the record as the first word's DONE would leave it. -/
def provisional (tag : Fin 8) (holds : List WordHold) (s : State) : Option OpenFrame :=
  match holds with
  | [] => s.asm.records.get tag
  | h :: _ => effectOnRecord h.effect (s.asm.records.get tag)

/-- The second word of a pair. A tear falls due on arrival; one made against the record the first word's DONE would leave
is counted only when the pair completes DONE (R59). -/
def holdSecond (tag : Fin 8) (a : Addr) (word : Word) (holds : List WordHold) (s : State) :
    Word × List WordHold × State :=
  match windowOf s a with
  | none => (word, holds, s)
  | some w =>
    let t := takeWord s tag (provisional tag holds s) w a word
    if t.tears && holds.isEmpty then (t.stored, [⟨a, false, false, t.effect⟩], tear tag s)
    else (t.stored, holds ++ [⟨a, t.tears, false, t.effect⟩], s)

/-! ### Completion (R51 to R59) -/

/-- A closed frame is offered to the work queue (R58, R109). -/
def offerFrame (item : FrameItem) (s : State) : State :=
  if Config.workQueueRefuse ≤ s.engine.workQueue.length then
    mark (targetOf item.isSummary item.lookup) { s with asm := { s.asm with overrun := s.asm.overrun + 1 } }
  else { s with engine := { s.engine with workQueue := s.engine.workQueue ++ [.frame item] } }

def frameItem (tag : Fin 8) (f : OpenFrame) : FrameItem :=
  ⟨tag, f.window, f.received, f.converted, f.lookup, f.carried⟩

/-- The frame closes (R57). -/
def closeFrame (tag : Fin 8) (good : Bool) (s : State) : State :=
  match s.asm.records.get tag with
  | none => s
  | some f =>
    let s1 := setAssembly tag none s
    let s2 := { s1 with asm := { s1.asm with closed := s1.asm.closed + 1 } }
    if good then offerFrame (frameItem tag f) s2
    else mark (targetOf (f.kind == kindSummary) f.lookup)
      { s2 with asm := { s2.asm with checkFailed := s2.asm.checkFailed + 1 } }

/-- A head that does not fit is torn at once, and its master's record is EMPTY (R51). -/
def tearUnfit (tag : Fin 8) (f : OpenFrame) (s : State) : State :=
  let s1 := setAssembly tag none s
  mark (targetOf (f.kind == kindSummary) f.lookup) { s1 with asm := { s1.asm with torn := s1.asm.torn + 1 } }

/-- The effect of one held word at DONE. A voided word has none (R36); a head that follows a voided check word opens its
frame, or is torn, in place of the frame left open, which is not counted TORN (log 32). A head looked up while processing
was on opens its frame though processing is off by then (R34, R51, log 37). -/
def settleWord (tag : Fin 8) (h : WordHold) (s : State) : State :=
  if h.void then s
  else
    let s1 := if h.tearsAtDone then tear tag s else s
    match h.effect with
    | .nothing => s1
    | .opens f fits => if fits then setAssembly tag (some f) s1 else tearUnfit tag f s1
    | .advances w => setAssembly tag (effectOnRecord (.advances w) (s1.asm.records.get tag)) s1
    | .converts w st v k => setAssembly tag (effectOnRecord (.converts w st v k) (s1.asm.records.get tag)) s1
    | .closes good => closeFrame tag good s1

/-- The effects of the held words take place in address order. -/
def settleWords (tag : Fin 8) : List WordHold → State → State
  | [], s => s
  | h :: rest, s => settleWords tag rest (settleWord tag h s)

end Sys2Proof.Machine
end

