-- ==== Sys2Proof/Machine/Entries.lean ====
section
/-! DEFINITION. The decision on a fetched entry (R30) and the effects of a load (R31 to R40, R42, R82, R115, R126, R140). -/
namespace Sys2Proof.Machine

/-! ### Proving protection (R86, R159) -/

def provingInProgress (s : State) : Bool :=
  match s.proving.run with
  | .armed | .running => true
  | .idle | .complete | .aborted => false

/-- The test or reference point of the proving record. -/
def isProvingPoint (s : State) (p : Fin 16) : Bool := p == s.proving.test || p == s.proving.reference

/-- An entry that a run between test point `p` and reference point `q` protects: the point entry of either, or a
classification entry whose loaded copy or new content targets either (R86, R159). -/
def protectedUnder (s : State) (p q : Fin 16) (pos : EntryPos) (ws : List Word) : Bool :=
  match pos with
  | .point x => x == p || x == q
  | .classification e =>
    (match (s.cls.entries.get e).entry with
      | some c => c.targets p || c.targets q
      | none => false)
      || newContentTargets ws p || newContentTargets ws q
  | .globalSettings | .band | .checker _ | .conversion _ | .segment _ | .slot _ => false

/-! ### The owner's decision (R30) -/

inductive Decision where
  | accepted
  | refused (reason : FaultReason)
deriving DecidableEq, Repr

/-- The commit word is the entry's last word. -/
def commitWordOf (pos : EntryPos) (ws : List Word) : Word := wordAt ws (pos.words - 1)

/-- The digest ring size the entry asks for: that of its words, or Table 2-4 for an unloading (R30 items 2, 4). -/
def newRingSize (ws : List Word) : Nat :=
  if commitValid (wordAt ws 15) then
    match readGlobal ws with
    | some g => g.ringSize
    | none => 16
  else GlobalSettings.unloaded.ringSize

/-- The global settings entry changes the ring size. -/
def changesRingSize (s : State) (pos : EntryPos) (ws : List Word) : Bool :=
  pos == .globalSettings && newRingSize ws != s.inEffect.ringSize

def decideEntry (s : State) (pos : EntryPos) (ws : List Word) : Decision :=
  if provingInProgress s && protectedUnder s s.proving.test s.proving.reference pos ws then
    .refused .provingProtected
  else if commitValid (commitWordOf pos ws) && !fieldsOk pos ws then .refused .invalidEntry
  else if changesRingSize s pos ws && !s.pub.digest.occupied.isEmpty then .refused .ringBusy
  else .accepted

/-! ### Loads -/

/-- The loaded copy an accepted entry gives: UNLOADED with its generation when the valid flag is clear (R32). -/
def loadedOf {α : Type} (pos : EntryPos) (ws : List Word) (read : List Word → Option α) : Loaded α :=
  let w := commitWordOf pos ws
  ⟨commitGeneration w, if commitValid w then read ws else none⟩

/-- A point entry loads (R115). A load that changes the loaded copy, its generation alone too, asks for a publication of the
record; unloading an UNLOADED entry changes only the generation (R32, log 33). -/
def loadPoint (p : Fin 16) (new : Loaded PointEntry) (s : State) : State :=
  let r := s.engine.points.get p
  let old := s.engine.pointEntries.get p
  let before := s.pointEnabled p
  let after := entryEnabled new.entry
  let r' : PointRecord :=
    if before && after then r.incomplete
    else if after then
      { r with window := PointWindow.zero, baseFlag := false, densityPresent := false, silentWindows := 0 }
    else r
  let s1 := { s with engine := { s.engine with
      pointEntries := upd s.engine.pointEntries p new
      points := upd s.engine.points p r' } }
  if new = old ∨ (new.entry = none ∧ old.entry = none) then s1 else requestPublication (pointRecordNo p) s1

/-- A remote slot entry loads (R126). -/
def loadSlot (i : Fin 8) (new : Loaded SlotEntry) (s : State) : State :=
  let r := s.engine.slots.get i
  let before := slotEnabled (s.engine.slotEntries.get i).entry
  let after := slotEnabled new.entry
  let r' : RemoteSlot :=
    if before && after then { r with allComplete := false }
    else if after then { r with volume := 0, solids := 0, count := 0, allComplete := false, mismatch := false }
    else r
  { s with engine := { s.engine with
      slotEntries := upd s.engine.slotEntries i new
      slots := upd s.engine.slots i r' } }

def setSegment (g : Fin 8) (x : Segment) (s : State) : State :=
  { s with balance := { s.balance with segments := upd s.balance.segments g x } }

/-- The record a load or a RESET SEGMENT leaves (R140, R147). -/
def resetSegmentRecord (enabled : Bool) : Segment :=
  { Segment.initial with state := if enabled then .filling else .disabled }

/-- A segment entry loads (R140); a change of the conditions is reported with origin COMMIT (R146): the reservation, then the
cause, then the load's one publication request, an order that the model chooses (log 39). -/
def loadSegment (g : Fin 8) (new : Loaded SegmentEntry) (s : State) : State :=
  let before := (s.balance.segments.get g).conditions
  let after := resetSegmentRecord (segmentEnabled new.entry)
  let s1 := setSegment g after { s with balance := { s.balance with entries := upd s.balance.entries g new } }
  let s2 :=
    if before = after.conditions then s1
    else raiseCause .condition
      (reserve .other .condition
        (segmentConditionBody g { Origins.none with commit := true } s1.engine.windowNumber before after) s1)
  requestPublication (segmentRecordNo g) s2

/-- A classification entry loads; its armed flag follows its capture mode (R82). -/
def loadClass (e : Fin 64) (new : Loaded ClassEntry) (s : State) : State :=
  let armed := match new.entry with
    | some c => c.captureMode == .next
    | none => false
  setArmed e armed { s with cls := { s.cls with entries := upd s.cls.entries e new } }

/-! ### The global settings entry (R33 to R40) -/

/-- A window is changed when its enable, base or length differs; one that stays disabled is unchanged (R36). -/
def windowChanged (old new : SampleWindow) : Bool := (old.enable || new.enable) && old != new

/-- The address lies in a changed window as the windows stood before (R36). -/
def inChangedWindow (s : State) (old new : Vector SampleWindow 4) (a : Addr) : Bool :=
  match windowUnder s old a with
  | some w => windowChanged (old.get w) (new.get w)
  | none => false

/-- The held words of a sample-window write that lie in a changed window lose their effect (R36). -/
def voidHolds (s : State) (old new : Vector SampleWindow 4) (holds : List WordHold) : List WordHold :=
  holds.map (fun h => if inChangedWindow s old new h.addr then { h with void := true } else h)

/-- Tears the open frame of one master whose frame address lies in a changed window. -/
def tearIfChanged (old new : Vector SampleWindow 4) (s : State) (tag : Fin 8) : State :=
  match s.asm.records.get tag with
  | none => s
  | some f => if inChangedWindow s old new f.address then tear tag s else s

def allTags : List (Fin 8) := [0, 1, 2, 3, 4, 5, 6, 7]
def allPoints : List (Fin 16) := [0, 1, 2, 3, 4, 5, 6, 7, 8, 9, 10, 11, 12, 13, 14, 15]

/-- Stage 1 of R33: the sample windows. -/
def applyWindows (old new : Vector SampleWindow 4) (s : State) : State :=
  let s1 := allTags.foldl (tearIfChanged old new) s
  match s1.path.current with
  | some ⟨t, .pass access holds⟩ =>
    { s1 with path := { s1.path with current := some ⟨t, .pass access (voidHolds s1 old new holds)⟩ } }
  | _ => s1

/-- Stage 2 of R33: a changed ring size leaves every entry FREE and the reservation position 0 (R39), also where entries
are occupied because another load changed the size after the acceptance; their DIGEST items stay queued or held back
(log 24). -/
def applyRing (old new : Nat) (s : State) : State :=
  if old = new then s
  else { s with pub := { s.pub with digest := { s.pub.digest with oldest := 0, occupied := [] } } }

/-- Stage 4 of R33: a cause that leaves the enable set leaves the pending set (R40). -/
def applyCauses (new : BitVec 6) (s : State) : State := { s with irq := s.irq &&& new }

/-- Marks every enabled point (R35, R132). -/
def markPoint (s : State) (p : Fin 16) : State := mark (.point p) s

/-- Last stage of R33: processing enable (R34, R35). -/
def applyEnable (old new : Bool) (s : State) : State :=
  if old = new then s
  else if new then
    let s1 := { s with timer := ⟨true, 0, some s.inEffect.period⟩ }
    reserve .other .restart (restartBody false s1.engine.windowNumber 0 0) (allPoints.foldl markPoint s1)
  else { s with timer := { s.timer with running := false } }

/-- The global settings entry loads: every field is replaced at once and the effects follow in the order of R33. The window
period and the fields read where they are used need nothing here (R37, R38, R40). -/
def loadGlobal (new : Loaded GlobalSettings) (s : State) : State :=
  let old := s.inEffect
  let s1 := { s with settings := new }
  let now := s1.inEffect
  applyEnable old.enable now.enable
    (applyCauses now.causeEnable
      (applyRing old.ringSize now.ringSize
        (applyWindows old.windows now.windows s1)))

/-- An accepted entry becomes the loaded copy (R31, R42). -/
def loadEntry (pos : EntryPos) (ws : List Word) (s : State) : State :=
  match pos with
  | .globalSettings => loadGlobal (loadedOf pos ws readGlobal) s
  | .band => { s with cls := { s.cls with band := loadedOf pos ws readBand } }
  | .checker i => { s with cls := { s.cls with checkers := upd s.cls.checkers i (loadedOf pos ws readChecker) } }
  | .conversion i =>
    { s with arith := { s.arith with conversions := upd s.arith.conversions i (loadedOf pos ws readConversion) } }
  | .point p => loadPoint p (loadedOf pos ws readPoint) s
  | .segment g => loadSegment g (loadedOf pos ws readSegment) s
  | .slot r => loadSlot r (loadedOf pos ws readSlot) s
  | .classification e => loadClass e (loadedOf pos ws readClass) s

end Sys2Proof.Machine
end

