-- ==== Sys2Proof/Machine/Balance.lean ====
section
/-! DEFINITION. The Balance Unit (Chapter 7): a segment's step at a hand-over (R141 to R146), the segment commands (R147,
R148), and the remote slots' intake (R134). -/
namespace Sys2Proof.Machine

/-- An amount handed over, with its complete flag (R127). -/
structure Amount where
  value : F64
  complete : Bool
deriving DecidableEq, Repr

/-- A disabled point or slot is handed over as absent and incomplete (R127). -/
def Amount.absent : Amount := ⟨0, false⟩

/-- The closed amount of a point or slot in a basis, as the marker's view holds it. -/
def pointAmount (s : State) (view : MarkerView) (basis : Basis) (p : Fin 16) : Amount :=
  if view.points.get p then
    let w := (s.engine.points.get p).closed
    match basis with
    | .volume => ⟨w.volume, w.volumeComplete⟩
    | .solids => ⟨w.solids, w.solidsComplete⟩
  else Amount.absent

def slotAmount (s : State) (view : MarkerView) (basis : Basis) (r : Fin 8) : Amount :=
  if view.slots.get r then
    let x := s.engine.slots.get r
    match basis with
    | .volume => ⟨x.closedVolume, x.closedComplete⟩
    | .solids => ⟨x.closedSolids, x.closedComplete⟩
  else Amount.absent

def sourceAmount (s : State) (view : MarkerView) (basis : Basis) (src : Source) : Amount :=
  match src with
  | .point p => pointAmount s view basis p
  | .slot r => slotAmount s view basis r

/-- A difference that is infinite or NaN is taken as GAP (R142). -/
def differenceOf (inflow outflow : F64) : Difference :=
  let d := (fSub (held64 inflow) (held64 outflow)).value
  if f64IsNaN d || f64IsInf d then .gap else .value d

/-- The comparison of an inflow item with the outflow amount (R142). -/
def compareAmounts (item : LagItem) (outflow : Amount) : Difference :=
  if item.complete && outflow.complete then differenceOf item.amount outflow.value else .gap

/-- Stage 1 (R142): the inflow item is appended; with more than L items the oldest is removed and compared. -/
def lagStage (lag : Nat) (closing : Word) (inflow outflow : Amount) (g : Segment) : Segment × Option Difference :=
  match g.lag ++ [(⟨closing, inflow.value, inflow.complete⟩ : LagItem)] with
  | [] => (g, none)
  | oldest :: rest =>
    if lag < (oldest :: rest).length then
      let d := compareAmounts oldest outflow
      ({ g with lag := rest, lastWindow := some closing, lastDifference := some d }, some d)
    else ({ g with lag := oldest :: rest }, none)

/-- S formed anew (R143). -/
def ringSum (ring : List Difference) : F64 :=
  ring.foldl (fun acc d =>
    match d with
    | .value x => (fAdd (held64 acc) (held64 x)).value
    | .gap => acc) 0

/-- The ring with a comparison appended, cut to M entries (R143). -/
def pushRing (span : Nat) (ring : List Difference) (d : Difference) : List Difference :=
  let r := ring ++ [d]
  if span < r.length then r.tail else r

def withGap (conditions : BitVec 3) (ring : List Difference) : BitVec 3 :=
  if ring.any Difference.isGap then conditions ||| segGap else conditions &&& ~~~segGap

/-- Stage 2 (R143). -/
def ringStage (span : Nat) (compared : Option Difference) (g : Segment) : Segment :=
  let g1 := match compared with
    | none => g
    | some d =>
      let r := pushRing span g.ring d
      { g with ring := r, sum := ringSum r }
  { g1 with
    state := if g1.ring.length < span then .filling else .watching
    conditions := withGap g1.conditions g1.ring }

/-- The decision and clearing stages are made when the segment is WATCHING with no GAP (R144, R145). -/
def decides (g : Segment) : Bool := g.state == .watching && g.conditions &&& segGap == 0

def has (c m : BitVec 3) : Bool := c &&& m != 0

/-- Stage 3 (R144). -/
def decisionStage (e : SegmentEntry) (g : Segment) : Segment :=
  let t := widen e.threshold
  if fLt t g.sum then
    let loss := min (g.loss + 1) e.persistence
    let g1 := { g with loss := loss, gain := 0 }
    if loss = e.persistence && !has g.conditions segLoss then
      { g1 with conditions := (g.conditions ||| segLoss) &&& ~~~segGain, clear := 0 }
    else g1
  else if fLt g.sum (f64Negate t) then
    let gain := min (g.gain + 1) e.persistence
    let g1 := { g with loss := 0, gain := gain }
    if gain = e.persistence && !has g.conditions segGain then
      { g1 with conditions := (g.conditions ||| segGain) &&& ~~~segLoss, clear := 0 }
    else g1
  else { g with loss := 0, gain := 0 }

/-- Stage 4 (R145). -/
def clearStage (e : SegmentEntry) (g : Segment) : Segment :=
  if has g.conditions (segLoss ||| segGain) then
    if fLt (f64Abs g.sum) (widen e.clearLevel) then
      if e.persistence ≤ g.clear + 1 then
        { g with conditions := g.conditions &&& segGap, clear := 0, loss := 0, gain := 0 }
      else { g with clear := g.clear + 1 }
    else { g with clear := 0 }
  else { g with clear := 0 }

/-- The step of an enabled segment (R141 to R145). -/
def stepSegment (e : SegmentEntry) (closing : Word) (inflow outflow : Amount) (g : Segment) : Segment :=
  let first := lagStage e.lag closing inflow outflow g
  let g2 := ringStage e.span first.2 first.1
  if decides g2 then clearStage e (decisionStage e g2) else g2

/-- The report of a segment's change (R146): nothing when the conditions are as they were. The step is whole up to its
report, so the engine waits for room only after it (R141, log 8). -/
def segmentReport (g : Fin 8) (o : Origins) (window : Word) (before : BitVec 3) (after : Segment) : List Act :=
  if before = after.conditions then []
  else [.digest .condition (segmentConditionBody g o window before after), .cause .condition,
    .publish (segmentRecordNo g), .await]

/-- One segment of the hand-over (R141). -/
def segmentStep (g : Fin 8) (view : MarkerView) (s : State) : State × List Act :=
  match (s.balance.entries.get g).entry with
  | none => (s, [])
  | some e =>
    if e.enable then
      let old := s.balance.segments.get g
      let closing := s.engine.windowNumber
      let new := stepSegment e closing (sourceAmount s view e.basis e.inflow)
        (pointAmount s view e.basis e.outflow) old
      (setSegment g new s, segmentReport g { Origins.none with balance := true } closing old.conditions new)
    else (s, [])

/-- RESET SEGMENT on a segment in range (R147): a disabled segment's record is left as it is. The publication is asked for
once: that of the report of a change, or R147's own (log 8). -/
def resetSegment (g : Fin 8) (s : State) : State × List Act :=
  let old := s.balance.segments.get g
  let new := if segmentEnabled (s.balance.entries.get g).entry then resetSegmentRecord true else old
  (setSegment g new s,
    if old.conditions = new.conditions then [.publish (segmentRecordNo g)]
    else segmentReport g { Origins.none with command := true } s.engine.windowNumber old.conditions new)

/-- ACK CONDITIONS on a segment in range (R148). -/
def ackSegmentRecord (named : Word) (x : Segment) : Segment :=
  let x1 := if bit named 0 then { x with conditions := x.conditions &&& ~~~segLoss, loss := 0, clear := 0 } else x
  if bit named 1 then { x1 with conditions := x1.conditions &&& ~~~segGain, gain := 0, clear := 0 } else x1

def ackSegment (g : Fin 8) (named : Word) (s : State) : State × List Act :=
  let old := s.balance.segments.get g
  let new := ackSegmentRecord named old
  (setSegment g new s,
    segmentReport g { Origins.none with command := true } s.engine.windowNumber old.conditions new)

/-! ### Intake of summaries (R134, R100) -/

/-- The SUMMARY step: the two proposed sums and the kinds (R100). -/
def summaryStep (x : RemoteSlot) (f : FrameItem) : F64 × F64 × Kinds :=
  let v := fAdd (held64 x.volume) (held64 f.summaryVolume)
  let m := fAdd (held64 x.solids) (held32 f.summarySolids)
  (v.value, m.value, v.kinds ||| m.kinds)

/-- The intake of a summary into a slot that the copy `e` holds enabled (R134). -/
def intakeSummary (r : Fin 8) (e : SlotEntry) (potency : Kinds) (f : FrameItem) (s : State) : State :=
  let x := s.engine.slots.get r
  let (volume, solids, kinds) := summaryStep x f
  if kinds &&& potency != 0 then
    offerArithFault (BitVec.ofNat 4 r.val) .summary f .summary kinds (spoilSlot r s)
  else if f64IsNaN volume || f64IsNaN solids then spoilSlot r s
  else setSlot r { x with
    volume := volume
    solids := solids
    count := x.count + 1
    allComplete := x.allComplete && f.complete
    mismatch := x.mismatch || f.station != e.expectedStation } s

end Sys2Proof.Machine
end

