-- ==== Sys2Proof/Machine/Proving.lean ====
section
/-! DEFINITION. The Proving Unit (Chapter 8): starting, running, completing and ending a run. -/
namespace Sys2Proof.Machine

def setProving (r : ProvingState) (s : State) : State := { s with proving := r }

/-- The report of a change of the proving state within the engine's processing (R153): the publication is asked for
first, and the cause is set once the DIGEST item has joined (log 8). -/
def provingReport (s : State) : List Act :=
  [.publish provingRecordNo, .digest .proving (provingBody s.proving s.engine.windowNumber), .await, .cause .proving]

/-- A commit is pending that a run between `p` and `q` would refuse (R151 item 4, R31). -/
def pendingProtectedCommit (s : State) (p q : Fin 16) : Bool :=
  match s.path.current with
  | some ⟨_, .held (.commit pos) ws _⟩ => protectedUnder s p q pos ws
  | _ => false

/-- The checks of R151 in order; `none` accepts the command. `reference` and `windows` are argument words 0 and 1. -/
def startRefusal (s : State) (target : Nat) (reference windows : Word) : Option StatusReason :=
  if provingInProgress s then some .busy
  else if 16 ≤ target ∨ 16 ≤ reference.toNat ∨ target = reference.toNat ∨ windows = 0 ∨ 255 < windows.toNat then
    some .badTarget
  else
    let p := Fin.ofNat 16 target
    let q := Fin.ofNat 16 reference.toNat
    if !s.pointEnabled p || !s.pointEnabled q then some .badTarget
    else if pendingProtectedCommit s p q then some .busy
    else none

/-- The record of an accepted START PROVING (R152). -/
def armRun (tag : BitVec 8) (test reference : Fin 16) (windows : BitVec 8) (r : ProvingState) : ProvingState :=
  { ProvingState.initial with
    run := .armed
    number := r.number + 1
    owner := tag
    test := test
    reference := reference
    requested := windows }

/-- The result of a run (R157): a zero divisor gives NaN and INVALID, as does any other NaN result. -/
def quotientOrNaN (a b : F64) : F64 := if f64IsZero b then f64NaN else (fDiv (held64 a) (held64 b)).value

def runResult (r : ProvingState) : ProvingState :=
  let factor := quotientOrNaN r.referenceVolume r.testVolume
  let deviation :=
    quotientOrNaN (fSub (held64 r.testVolume) (held64 r.referenceVolume)).value r.referenceVolume
  { r with
    factor := factor
    deviation := deviation
    invalid := r.invalid || f64IsNaN factor || f64IsNaN deviation }

/-- A window close while RUNNING (R156): the record after it. `complete` and `stale` are those of the two points at this
close. -/
def closeRun (complete stale : Bool) (r : ProvingState) : ProvingState :=
  let r1 := { r with elapsed := r.elapsed + 1, incomplete := r.incomplete || !complete }
  if stale then { r1 with run := .aborted, abort := .stale }
  else if r1.elapsed = r1.requested then { runResult r1 with run := .complete, abort := .none }
  else r1

/-- The point holds STALE. -/
def isStale (s : State) (p : Fin 16) : Bool := (s.engine.points.get p).conditions &&& condStale != 0

/-- The Proving Unit is informed of a window close (R154, R156). -/
def provingClose (s : State) : State × List Act :=
  let r := s.proving
  match r.run with
  | .armed =>
    let s1 := setProving { r with run := .running, elapsed := 0, firstWindow := s.engine.windowNumber + 1 } s
    (s1, provingReport s1)
  | .running =>
    let complete := (s.engine.points.get r.test).closed.volumeComplete
      && (s.engine.points.get r.reference).closed.volumeComplete
    let s1 := setProving (closeRun complete (isStale s r.test || isStale s r.reference) r) s
    (s1, if s1.proving.run = .running then [.publish provingRecordNo] else provingReport s1)
  | .idle | .complete | .aborted => (s, [])

/-- A run ends early (R158, R160). -/
def abortRun (reason : AbortReason) (r : ProvingState) : ProvingState := { r with run := .aborted, abort := reason }

/-- Which proving volume a point feeds, if it is in a RUNNING proof (R155). -/
inductive Feed where
  | none | test | reference
deriving DecidableEq, Repr

def feedOf (s : State) (p : Fin 16) : Feed :=
  if s.proving.run = .running then
    if p = s.proving.test then .test else if p = s.proving.reference then .reference else .none
  else .none

/-- The proving volume takes its proposed sum and the sample is counted (R155). -/
def feedRun (feed : Feed) (volume : F64) (s : State) : State :=
  match feed with
  | .none => s
  | .test => setProving { s.proving with testVolume := volume, testCount := s.proving.testCount + 1 } s
  | .reference =>
    setProving { s.proving with referenceVolume := volume, referenceCount := s.proving.referenceCount + 1 } s

def feedVolume (feed : Feed) (s : State) : F64 :=
  match feed with
  | .none => 0
  | .test => s.proving.testVolume
  | .reference => s.proving.referenceVolume

end Sys2Proof.Machine
end

