-- ==== Sys2Proof/Machine/Engine.lean ====
section
/-! DEFINITION. The Point Engine (Chapter 6): the processing of one item, with the places where it waits for room in the
own-access queue (R111, R164). An item's processing is a list of stages; a stage changes the state and asks for acts; the
engine stops at an act it must wait at and goes on from there when it has been given a place. -/
namespace Sys2Proof.Machine

/-! ### Acts -/

def setJob (j : Option Job) (s : State) : State := { s with engine := { s.engine with job := j } }

def modifyJob (f : Job → Job) (s : State) : State := setJob (s.engine.job.map f) s

/-- An offered item joins; an OUTBOUND item takes its ring position when it joins (R176). -/
def joinOffer (o : Offer) (s : State) : State :=
  match o with
  | .outbound frame =>
    let at_ := s.pub.outboundIndex
    joinQueue (.outbound at_ frame) { s with pub := { s.pub with outboundIndex := at_ + 1 } }
  | .status slot word => joinQueue (.status slot word) s
  | .fetch pos => joinQueue (.fetch pos) s

/-- The engine offers an item: it joins at once, or the engine waits with it (R164). -/
def offerItem (o : Offer) (s : State) : State :=
  if hasRoom s then joinOffer o s else modifyJob (fun j => { j with offer := some o }) s

/-- Something the engine offered is held back. -/
def engineWaits (s : State) : Bool := (engineOffer s).isSome || s.pub.heldDigests.any (·.byEngine)

def execAct (a : Act) (s : State) : State :=
  match a with
  | .digest kind body => reserve .engine kind body s
  | .offer o => offerItem o s
  | .await => s
  | .cause c => raiseCause c s
  | .publish r => requestPublication r s
  | .countRelayed => { s with balance := { s.balance with relayed := s.balance.relayed + 1 } }

/-- Acts in order, up to an `await` that has to wait; the acts that remain. -/
def runActs : List Act → State → State × List Act
  | [], s => (s, [])
  | a :: rest, s => if a = .await ∧ engineWaits s = true then (s, a :: rest) else runActs rest (execAct a s)

/-! ### Sample frames (R119 to R124) -/

/-- The quantities derived for a sample, with the kinds of each step (R120). -/
structure Derived where
  quantities : Quantities
  flow : Kinds
  concentration : Kinds
  solidsRate : Kinds
  clamped : Bool
deriving DecidableEq, Repr

/-- The latest density is fresh (R120). -/
def densityFresh (e : PointEntry) (r : PointRecord) (time : Word) : Bool :=
  r.densityPresent && decide ((time - r.densityTime).toNat ≤ e.pairingLimit.toNat)

def deriveVelocity (e : PointEntry) (r : PointRecord) (v : F64) (time : Word) : Derived :=
  let q := flowStep e v
  if densityFresh e r time then
    let cv := concentrationStep e r.density
    let rate := solidsRateStep e q.value cv.1.value
    ⟨⟨.velocity, v, some r.density, some cv.1.value, some q.value, some rate.value⟩, q.kinds, cv.1.kinds, rate.kinds,
      cv.2⟩
  else ⟨⟨.velocity, v, none, none, some q.value, none⟩, q.kinds, 0, 0, false⟩

def deriveDensity (e : PointEntry) (v : F64) : Derived :=
  let cv := concentrationStep e v
  ⟨⟨.density, v, some v, some cv.1.value, none, none⟩, 0, cv.1.kinds, 0, cv.2⟩

/-- R120: the role decides, not the kind. An action never holds SUMMARY; it is read as PRESSURE, which derives nothing. -/
def deriveSample (role : Role) (e : PointEntry) (r : PointRecord) (v : F64) (time : Word) : Derived :=
  match role with
  | .velocity => deriveVelocity e r v time
  | .density => deriveDensity e v
  | .pressure | .summary => ⟨⟨.pressure, v, none, none, none, none⟩, 0, 0, 0, false⟩

def potent (kinds potency : Kinds) : Bool := kinds &&& potency != 0

/-- Every kind weighed at the first check (R102). -/
def weighed (carried : Kinds) (d : Derived) : Kinds := carried ||| d.flow ||| d.concentration ||| d.solidsRate

/-- The earliest step with a potent kind (R102). -/
def failingStep (carried potency : Kinds) (d : Derived) : ArithStep :=
  if potent carried potency then .conversion
  else if potent d.flow potency then .flow
  else if potent d.concentration potency then .concentration
  else .solidsRate

def modifyPoint (p : Fin 16) (f : PointRecord → PointRecord) (s : State) : State :=
  setPoint p (f (s.engine.points.get p)) s

def addSticky (m : BitVec 8) (r : PointRecord) : PointRecord := { r with sticky := r.sticky ||| m }

def addConditions (m : BitVec 8) (r : PointRecord) : PointRecord := { r with conditions := r.conditions ||| m }

/-- A four-word sample is abandoned (R104); its mark is discarded at a point disabled meanwhile (R116, log 17). -/
def abandonSample (p : Fin 16) (role : Role) (item : FrameItem) (step : ArithStep) (kinds : Kinds) (s : State) : State :=
  offerArithFault (BitVec.ofNat 4 p.val) role item step kinds
    (modifyPoint p (addConditions condArith) (mark (.point p) s))

/-- A sample skips accumulation for NaN (R105). -/
def skipNaN (p : Fin 16) (s : State) : State := modifyPoint p (addSticky stickyNanSkipped) (mark (.point p) s)

def setSample (w : SampleWork) (s : State) : State :=
  modifyJob (fun j => { j with frame := j.frame.map (fun f => { f with sample := some w }) }) s

/-- The second lookup and its first two effects, counter and capture (R121, R76). -/
def lookupSample (p : Fin 16) (item : FrameItem) (d : Derived) (s : State) : State × List Act :=
  let key := sampleKey s p item d.quantities
  let fresh := d.quantities.density.isSome
  let cv := d.quantities.concentration.getD 0
  match secondLookup s key with
  | none => (setSample ⟨fresh, cv, SecondAction.default, none⟩ s, [])
  | some r =>
    let s1 := setSample ⟨fresh, cv, r.action, some r.index⟩ (raiseHit r.action.counter s)
    if secondCaptures s r then
      (disarm r.action.capture r.index s1,
        [.digest .capture (secondCaptureBody item key r.index r.generation r.action.capture), .await])
    else (s1, [])

/-- Derivation, first potency check and second lookup of a four-word sample for a point enabled in the copy `e`. -/
def processSample (w : FrameWork) (l : LookupResult) (e : PointEntry) (s : State) : State × List Act :=
  let p := l.action.target
  let d := deriveSample l.action.role e (s.engine.points.get p) (w.item.value.getD f64NaN) w.item.timeStamp
  let kinds := weighed w.item.carried d
  if potent kinds w.potency then
    (abandonSample p l.action.role w.item (failingStep w.item.carried w.potency d) kinds s, [])
  else
    lookupSample p w.item d
      (modifyPoint p (addSticky (kinds.setWidth 8 ||| (if d.clamped then stickyCvClamped else 0))) s)

def countToDisabled (s : State) : State :=
  { s with engine := { s.engine with toDisabledPoint := s.engine.toDisabledPoint + 1 } }

/-- The intake stage of a summary (R133). -/
def intakeStage (w : FrameWork) (l : LookupResult) (s : State) : State :=
  match l.action.disposition with
  | .process | .processAndRelay =>
    match w.slot with
    | some e =>
      if e.enable then intakeSummary (Fin.ofNat 8 l.action.target.val) e w.potency w.item s else countToDisabled s
    | none => countToDisabled s
  | .passOnly | .relay => s

/-- The relay of a summary (R136). -/
def relayStage (w : FrameWork) (l : LookupResult) (s : State) : State × List Act :=
  if l.action.disposition.relays then
    if w.item.hops.toNat < s.inEffect.hopLimit.toNat then
      (s, [.offer (.outbound (relayFrame w.item.received)), .await, .countRelayed])
    else ({ s with balance := { s.balance with relayDropped := s.balance.relayDropped + 1 } }, [])
  else (s, [])

/-- The dispatch of a frame item (R119). -/
def dispatchFrame (w : FrameWork) (s : State) : State × List Act :=
  match w.item.lookup with
  | none => ({ s with engine := { s.engine with unclassified := s.engine.unclassified + 1 } }, [])
  | some l =>
    if l.action.disposition = .passOnly then (s, [])
    else if w.item.isSummary then relayStage w l (intakeStage w l s)
    else
      match w.point with
      | some e => if e.enable then processSample w l e s else (countToDisabled s, [])
      | none => (countToDisabled s, [])

/-- The condition mode applied to a point (R74, R117). -/
def applyMode (mode : CondMode) (operand : BitVec 8) (r : PointRecord) : PointRecord :=
  if r.hold then r
  else
    let kept := r.conditions &&& ~~~lookupConditions
    match mode with
    | .none => r
    | .raise => { r with conditions := r.conditions ||| operand }
    | .clear => { r with conditions := r.conditions &&& ~~~operand }
    | .replace => { r with conditions := kept ||| operand }
    | .replaceHold => { r with conditions := kept ||| operand, hold := true }

/-- Both sample counts are raised (R122, R123). -/
def countSample (r : PointRecord) : PointRecord :=
  { r with sampleCount := r.sampleCount + 1, window := { r.window with samples := r.window.samples + 1 } }

/-- A stored velocity (R123). -/
def storeVelocity (v : F64) (time : Word) (r : PointRecord) : PointRecord :=
  let c := countSample r
  { c with
    velocity := v
    velocityTime := time
    baseFlag := true
    window := { c.window with velocitySeen := true }
    silentWindows := 0
    conditions := c.conditions &&& ~~~condStale }

/-- A time gap (R123). -/
def timeGap (p : Fin 16) (s : State) : State := modifyPoint p (addSticky stickyTimeGap) (mark (.point p) s)

/-- The proposed sums of an INTEGRATION step (R98 item 7). -/
structure Proposed where
  volumeTotal : F64
  windowVolume : F64
  solids : Option (F64 × F64)
  proving : F64
  kinds : Kinds
deriving DecidableEq, Repr

def proposeSums (r : PointRecord) (inc : Increments) (feed : Feed) (provingVolume : F64) : Proposed :=
  let dv := held64 inc.volume
  let total := fAdd (held64 r.volumeTotal) dv
  let window := fAdd (held64 r.window.volume) dv
  let proving := match feed with
    | .none => (⟨0, 0⟩ : Result)
    | .test | .reference => fAdd (held64 provingVolume) dv
  let kinds := inc.kinds ||| total.kinds ||| window.kinds ||| proving.kinds
  match inc.solids with
  | none => ⟨total.value, window.value, none, proving.value, kinds⟩
  | some ms =>
    let st := fAdd (held64 r.solidsTotal) (held64 ms)
    let sw := fAdd (held64 r.window.solids) (held64 ms)
    ⟨total.value, window.value, some (st.value, sw.value), proving.value, kinds ||| st.kinds ||| sw.kinds⟩

/-- A tested quantity of R105 is NaN. -/
def proposedNaN (inc : Increments) (x : Proposed) : Bool :=
  f64IsNaN inc.volume || f64IsNaN x.volumeTotal || f64IsNaN x.windowVolume || f64IsNaN x.proving
    || (match inc.solids with
        | some m => f64IsNaN m
        | none => false)
    || (match x.solids with
        | some (t, w) => f64IsNaN t || f64IsNaN w
        | none => false)

/-- The totals and window amounts take their proposed sums (R124). -/
def storeSums (x : Proposed) (r : PointRecord) : PointRecord :=
  let r1 := { r with
    volumeTotal := x.volumeTotal
    window := { r.window with volume := x.windowVolume } }
  match x.solids with
  | some (t, w) => { r1 with solidsTotal := t, window := { r1.window with solids := w } }
  | none => { r1 with window := { r1.window with solidsComplete := false } }

/-- A velocity increment (R124). -/
def incrementVelocity (w : FrameWork) (wk : SampleWork) (e : PointEntry) (p : Fin 16) (v : F64) (s : State) : State :=
  let r := s.engine.points.get p
  let time := w.item.timeStamp
  let inc := incrementsOf e v r.velocity (time - r.velocityTime)
    (if wk.velocityFresh then some wk.concentration else none)
  let feed := feedOf s p
  let x := proposeSums r inc feed (feedVolume feed s)
  if potent x.kinds w.potency then abandonSample p .velocity w.item .integration x.kinds s
  else
    let s1 := modifyPoint p (addSticky (x.kinds.setWidth 8)) s
    if proposedNaN inc x then skipNaN p s1
    else feedRun feed x.proving (modifyPoint p (fun r => storeVelocity v time (storeSums x r)) s1)

/-- An accumulated VELOCITY sample (R123). -/
def accumulateVelocity (w : FrameWork) (wk : SampleWork) (e : PointEntry) (p : Fin 16) (v : F64) (s : State) : State :=
  let r := s.engine.points.get p
  let time := w.item.timeStamp
  let dt := time - r.velocityTime
  if f64IsNaN v then skipNaN p s
  else if !r.baseFlag then modifyPoint p (storeVelocity v time) s
  else if dt = 0 ∨ e.gapLimit.toNat < dt.toNat then modifyPoint p (storeVelocity v time) (timeGap p s)
  else incrementVelocity w wk e p v s

/-- Accumulation (R122). -/
def accumulate (w : FrameWork) (wk : SampleWork) (l : LookupResult) (e : PointEntry) (s : State) : State :=
  let p := l.action.target
  let v := w.item.value.getD f64NaN
  if !wk.action.accumulate then
    modifyPoint p (fun r => { r with window := { r.window with excluded := r.window.excluded + 1 } }) s
  else
    match l.action.role with
    | .velocity => accumulateVelocity w wk e p v s
    | .density =>
      if f64IsNaN v || f64IsNaN wk.concentration then skipNaN p s
      else modifyPoint p (fun r =>
        countSample { r with density := v, densityTime := w.item.timeStamp, densityPresent := true }) s
    | .pressure | .summary =>
      if f64IsNaN v then skipNaN p s else modifyPoint p (fun r => countSample { r with pressure := v }) s

/-- The stages after a second lookup: condition mode, match interrupt, accumulation (R76, R121, R122). An item that ended
before its second lookup has none. -/
def frameEffects (w : FrameWork) (s : State) : State :=
  match w.sample, w.item.lookup, w.point with
  | some wk, some l, some e =>
    let s1 := modifyPoint l.action.target (applyMode wk.action.mode wk.action.operand) s
    let s2 := if wk.action.matchInterrupt then raiseCause .matched s1 else s1
    accumulate w wk l e s2
  | _, _, _ => s

/-! ### Window close (R125 to R127) -/

/-- The marker's view (R125), with the station id the close's summaries carry (R40). -/
def markerView (s : State) : MarkerView where
  points := s.engine.pointEntries.map (fun e => entryEnabled e.entry)
  exports := s.engine.pointEntries.map (fun e => entryExports e.entry)
  slots := s.engine.slotEntries.map (fun e => slotEnabled e.entry)
  stationId := s.inEffect.stationId

/-- A point's window closes (R125). -/
def closePointRecord (number : Word) (staleLimit : BitVec 8) (r : PointRecord) : PointRecord :=
  let silent := if r.window.velocitySeen then r.silentWindows else min (r.silentWindows + 1) 255
  let stale := !r.window.velocitySeen && decide (staleLimit.toNat ≤ silent)
  { r with
    closed := ⟨number, r.window.volume, r.window.solids, r.window.volumeComplete && r.window.velocitySeen,
      r.window.solidsComplete && r.window.velocitySeen⟩
    silentWindows := silent
    conditions := if stale then r.conditions ||| condStale else r.conditions
    window := { PointWindow.zero with volumeComplete := true, solidsComplete := true } }

def closePoint (s : State) (p : Fin 16) : State :=
  match (s.engine.pointEntries.get p).entry with
  | some e => if e.enable then modifyPoint p (closePointRecord s.engine.windowNumber e.staleLimit) s else s
  | none => s

/-- A remote slot's window closes (R126). -/
def closeSlotRecord (x : RemoteSlot) : RemoteSlot :=
  ⟨0, 0, 0, true, false, x.volume, x.solids, decide (1 ≤ x.count) && x.allComplete && !x.mismatch⟩

def closeSlot (s : State) (r : Fin 8) : State :=
  if slotEnabled (s.engine.slotEntries.get r).entry then setSlot r (closeSlotRecord (s.engine.slots.get r)) s else s

def allSlots : List (Fin 8) := [0, 1, 2, 3, 4, 5, 6, 7]

/-- Points, then slots. -/
def closeWindows (s : State) : State := allSlots.foldl closeSlot (allPoints.foldl closePoint s)

/-- The outbound summary of one point (R135). -/
def outboundSummary (p : Fin 16) (view : MarkerView) (s : State) : List Act :=
  if view.points.get p && view.exports.get p then
    [.offer (.outbound (summaryFrame view.stationId p (s.engine.points.get p).closed)), .await]
  else []

/-- The publications of stage 3 of a marker (R127): points, segments, statistics. -/
def closeRequests : List Act :=
  allPoints.map (fun p => .publish (pointRecordNo p)) ++ allSlots.map (fun g => .publish (segmentRecordNo g))
    ++ [.publish statisticsRecordNo]

/-! ### The report at the end of an item (R118) -/

def conditionsOf (s : State) : Vector (BitVec 8 × Bool) 16 := s.engine.points.map (fun r => (r.conditions, r.hold))

/-- The origins of a change: a lookup condition or HOLD changed by the second-lookup entry or the command, STALE or ARITH by
the engine or the command (log 20). -/
def changeOrigins (j : Job) (before after : BitVec 8 × Bool) : Origins :=
  let changed := before.1 ^^^ after.1
  if j.isCommand then { Origins.none with command := true }
  else
    { Origins.none with
      lookup := if changed &&& lookupConditions != 0 || before.2 != after.2 then
          j.frame.bind (fun w => w.sample.bind (·.entry))
        else none
      engine := changed &&& ~~~lookupConditions != 0 }

def reportPoint (j : Job) (s : State) (p : Fin 16) : List Act :=
  let r := s.engine.points.get p
  let before := j.before.get p
  if before = (r.conditions, r.hold) then []
  else [.digest .condition (pointConditionBody p r.hold (changeOrigins j before (r.conditions, r.hold))
      s.engine.windowNumber before.1 r.conditions), .await, .cause .condition, .publish (pointRecordNo p)]

/-- The points whose conditions or HOLD changed, in ascending order (R118, log 13). -/
def reportPoints (j : Job) (s : State) : List Act := allPoints.flatMap (reportPoint j s)

/-! ### Stages -/

/-- A stage is entered: the state and the acts it asks for, or `none` while the engine must stay before it (an image reload
whose FETCH items are not all finished, R43). -/
def enterStage (st : Stage) (s : State) : Option (State × List Act) :=
  match st, s.engine.job with
  | .frameDispatch, some ⟨_, _, some w, _, _, _, _⟩ => some (dispatchFrame w s)
  | .frameEffects, some ⟨_, _, some w, _, _, _, _⟩ => some (frameEffects w s, [])
  | .segmentStep g, some ⟨_, _, _, some view, _, _, _⟩ => some (segmentStep g view s)
  | .outboundSummary p, some ⟨_, _, _, some view, _, _, _⟩ => some (s, outboundSummary p view s)
  | .provingClose, _ => some (provingClose s)
  | .closeRequests, _ => some (s, closeRequests)
  | .advanceWindow, _ =>
    some ({ s with engine := { s.engine with windowNumber := s.engine.windowNumber + 1 } }, [])
  | .report, some j => some (s, reportPoints j s)
  | .reloadEnd slot command, _ =>
    match s.engine.reload with
    | some r =>
      if r.finished < Config.reloadItems then none
      else some ({ s with engine := { s.engine with reload := none } },
        [.offer (.status slot (statusWord command .none r.refused r.failed)), .await])
    | none => some (s, [])
  | .answer slot word, _ => some (s, [.offer (.status slot word), .await])
  | .frameDispatch, _ | .frameEffects, _ | .segmentStep _, _ | .outboundSummary _, _ | .report, none => some (s, [])

/-- The engine stops: what remains of the item is kept. -/
def suspend (acts : List Act) (stages : List Stage) (s : State) : State :=
  modifyJob (fun j => { j with acts := acts, stages := stages }) s

/-- Stages in order to the item's end, or to the first wait. -/
def runStages : List Stage → State → State
  | [], s => setJob none s
  | st :: rest, s =>
    match enterStage st s with
    | none => suspend [] (st :: rest) s
    | some (s1, acts) =>
      match runActs acts s1 with
      | (s2, []) => runStages rest s2
      | (s2, left) => suspend left rest s2

/-- Acts, then stages. -/
def runJob (acts : List Act) (stages : List Stage) (s : State) : State :=
  match runActs acts s with
  | (s1, []) => runStages stages s1
  | (s1, left) => suspend left stages s1

/-- The engine goes on with its item, as far as it can. -/
def resumeEngine (s : State) : State :=
  match s.engine.job with
  | none => s
  | some j => runJob j.acts j.stages s

/-- The item taken leaves the work queue, and the engine has a job in hand (R111, R118). -/
def beginJob (rest : List WorkItem) (isCommand : Bool) (frame : Option FrameWork) (view : Option MarkerView) (s : State) :
    State :=
  { s with engine := { s.engine with
      workQueue := rest
      job := some ⟨isCommand, conditionsOf s, frame, view, [], [], none⟩ } }

/-! ### Taking an item (R111) -/

/-- The copies taken with a frame item (R101, R111, R133). -/
def frameWork (item : FrameItem) (s : State) : FrameWork where
  item := item
  potency := s.inEffect.potency
  point := match item.lookup with
    | some l => (s.engine.pointEntries.get l.action.target).entry
    | none => none
  slot := match item.lookup with
    | some l =>
      if l.action.target.val < 8 then (s.engine.slotEntries.get (Fin.ofNat 8 l.action.target.val)).entry else none
    | none => none
  sample := none

/-- The first-lookup counter and capture (R78, R81, R83). -/
def firstEffects (item : FrameItem) (s : State) : State × List Act :=
  match item.lookup with
  | none => (s, [])
  | some l =>
    let s1 := raiseHit l.action.counter s
    if firstCaptures s l then
      (disarm l.action.capture l.index s1, [.digest .capture (firstCaptureBody item l), .await])
    else (s1, [])

/-- The stages of a frame item after its first-lookup capture (R119). -/
def frameStages : List Stage := [.frameDispatch, .frameEffects, .report]

/-- The engine takes the frame item at the front of the work queue (R119). -/
def takeFrame (item : FrameItem) (rest : List WorkItem) (s : State) : State :=
  let s1 := beginJob rest false (some (frameWork item s)) none s
  let s2 := { s1 with engine := { s1.engine with processed := s1.engine.processed + 1 } }
  let (s3, acts) := firstEffects item s2
  runJob acts frameStages s3

/-- The stages of a marker after points and slots are closed (R127, R135, R141). -/
def markerStages : List Stage :=
  allSlots.map Stage.segmentStep ++ allPoints.map Stage.outboundSummary
    ++ [.provingClose, .closeRequests, .advanceWindow, .report]

/-- The engine takes the window-close marker at the front of the work queue (R125). -/
def takeMarker (rest : List WorkItem) (s : State) : State :=
  runJob [] markerStages (closeWindows (beginJob rest false none (some (markerView s)) s))

end Sys2Proof.Machine
end

