-- ==== Sys2Proof/Machine/Commands.lean ====
section
/-! DEFINITION. The ten commands that the Point Engine takes from its work queue (Chapter 10, R183 to R185): the checks made
for every kind, and each owner's decision and effect. -/
namespace Sys2Proof.Machine

/-- What an owner answers: the state it leaves, the acts it asks for, and the reason of the status (NONE is DONE). -/
structure OwnerResult where
  state : State
  acts : List Act
  reason : StatusReason
deriving DecidableEq, Repr

/-- A refused command has no effect beyond its status (R183). -/
def OwnerResult.refused (reason : StatusReason) (s : State) : OwnerResult := ⟨s, [], reason⟩

/-- The command at the front of the work queue, and the items behind it, when the engine has no item in hand (R111). -/
def frontCommand (s : State) : Option (CommandItem × List WorkItem) :=
  match s.engine.job, s.engine.workQueue with
  | none, .command c :: rest => some (c, rest)
  | _, _ => none

/-- The command item is of one of the nine kinds of Table 10-1. -/
def knownKind (kind : Nat) : Bool := decide (1 ≤ kind) && decide (kind ≤ 9)

/-- The check of R183 that follows the kind: processing off refuses every kind but three. -/
def disabledNow (kind : Nat) (s : State) : Bool := !s.inEffect.enable && !takenWhileOff kind

/-- The word of argument `i`. -/
def CommandItem.arg (c : CommandItem) (i : Nat) : Word := wordAt c.args i

/-- The stages that end a command: the report of R118, then the STATUS item (R185). -/
def commandEnd (c : CommandItem) (reason : StatusReason) : List Stage :=
  [.report, .answer c.slot (statusWord c.word reason 0 0)]

/-- The checks of R183, then the owner; then the acts, the report and the status. -/
def carryOut (c : CommandItem) (owner : State → OwnerResult) (s : State) : State :=
  let r := if disabledNow (commandKind c.word) s then OwnerResult.refused .disabled s else owner s
  runJob r.acts (commandEnd c r.reason) r.state

/-- The engine takes the command at the front of its queue when it is of the given kind; otherwise nothing happens
(log 1). -/
def takeCommand (kind : Nat) (owner : CommandItem → State → OwnerResult) (s : State) : State :=
  match frontCommand s with
  | some (c, rest) =>
    if commandKind c.word = kind then carryOut c (owner c) (beginJob rest true none none s) else s
  | none => s

/-! ### Owners -/

/-- R128. -/
def clearTotalsRecord (r : PointRecord) : PointRecord :=
  { r with volumeTotal := 0, solidsTotal := 0, sampleCount := 0, sticky := 0, baseFlag := false }

/-- CLEAR TOTALS (R128). -/
def ownerClearTotals (c : CommandItem) (s : State) : OwnerResult :=
  if 16 ≤ commandTarget c.word then .refused .badTarget s
  else
    let p := Fin.ofNat 16 (commandTarget c.word)
    if provingInProgress s && isProvingPoint s p then .refused .provingActive s
    else ⟨mark (.point p) (modifyPoint p clearTotalsRecord s), [.publish (pointRecordNo p)], .none⟩

/-- R129: the named set is bits 0-7 of argument word 0. -/
def ackPointRecord (named : Word) (r : PointRecord) : PointRecord :=
  { r with
    hold := false
    conditions := r.conditions &&& ~~~(named.extractLsb' 0 8)
    sticky := if bit named 7 then 0 else r.sticky }

/-- ACK CONDITIONS (R129, R148). -/
def ownerAckConditions (c : CommandItem) (s : State) : OwnerResult :=
  let target := commandTarget c.word
  if commandOnSegment c.word then
    if 8 ≤ target then .refused .badTarget s
    else
      let (s1, acts) := ackSegment (Fin.ofNat 8 target) (c.arg 0) s
      ⟨s1, acts, .none⟩
  else if 16 ≤ target then .refused .badTarget s
  else ⟨modifyPoint (Fin.ofNat 16 target) (ackPointRecord (c.arg 0)) s, [], .none⟩

/-- START PROVING (R151, R152). -/
def ownerStartProving (c : CommandItem) (s : State) : OwnerResult :=
  match startRefusal s (commandTarget c.word) (c.arg 0) (c.arg 1) with
  | some reason => .refused reason s
  | none =>
    let s1 := setProving (armRun (commandTag c.word) (Fin.ofNat 16 (commandTarget c.word))
      (Fin.ofNat 16 (c.arg 0).toNat) ((c.arg 1).setWidth 8) s.proving) s
    ⟨s1, provingReport s1, .none⟩

/-- END PROVING (R158). -/
def ownerEndProving (c : CommandItem) (s : State) : OwnerResult :=
  if !provingInProgress s then .refused .notRunning s
  else if commandTag c.word != s.proving.owner then .refused .notOwner s
  else
    let s1 := setProving (abortRun .command s.proving) s
    ⟨s1, provingReport s1, .none⟩

/-- Every WRITTEN entry is released; the WRITTEN entries are the oldest (R174, R173). -/
def resyncRing (size : Nat) (d : DigestRing) : DigestRing :=
  let released := d.occupied.countP (·.written)
  { d with
    oldest := (d.oldest + released) % size
    occupied := d.occupied.filter (fun e => !e.written) }

/-- RESYNC DIGEST (R174). -/
def ownerResyncDigest (_c : CommandItem) (s : State) : OwnerResult :=
  ⟨{ s with pub := { s.pub with digest := resyncRing s.inEffect.ringSize s.pub.digest } }, [], .none⟩

/-- The entry is LOADED with capture mode NEXT (R84). -/
def armable (e : Option ClassEntry) : Bool :=
  match e with
  | some x => x.captureMode == .next
  | none => false

/-- ARM CAPTURE (R84). -/
def ownerArmCapture (c : CommandItem) (s : State) : OwnerResult :=
  if 64 ≤ commandTarget c.word then .refused .badTarget s
  else
    let e := Fin.ofNat 64 (commandTarget c.word)
    if armable (s.cls.entries.get e).entry then ⟨setArmed e true s, [], .none⟩ else .refused .badTarget s

/-- CLEAR FAULTS (R22, R107). The access fault record is published first (log 13). -/
def ownerClearFaults (_c : CommandItem) (s : State) : OwnerResult :=
  ⟨{ s with path := { s.path with fault := none }, arith := { s.arith with fault := none } },
    [.publish accessFaultRecordNo, .publish arithFaultRecordNo], .none⟩

/-- RESET SEGMENT (R147). -/
def ownerResetSegment (c : CommandItem) (s : State) : OwnerResult :=
  if 8 ≤ commandTarget c.word then .refused .badTarget s
  else
    let (s1, acts) := resetSegment (Fin.ofNat 8 (commandTarget c.word)) s
    ⟨s1, acts, .none⟩

/-! ### The image reload (R41) -/

/-- One FETCH item for each entry position, in the order of R41; the engine waits for each. -/
def reloadActs : List Act := reloadOrder.flatMap (fun pos => [.offer (.fetch pos), .await])

/-- The reload starts; its status follows its last FETCH item (R43). -/
def startReload (c : CommandItem) (s : State) : State :=
  runJob reloadActs [.reloadEnd c.slot c.word]
    { s with engine := { s.engine with reload := some ⟨0, 0, 0⟩ } }

/-! ### The commands -/

/-- CLEAR_TOTALS. -/
def execClearTotals (s : State) : Host.Outcome State Fault Refusal :=
  .next (takeCommand kindClearTotals ownerClearTotals s)

/-- ACK_CONDITIONS. -/
def execAckConditions (s : State) : Host.Outcome State Fault Refusal :=
  .next (takeCommand kindAckConditions ownerAckConditions s)

/-- START_PROVING. -/
def execStartProving (s : State) : Host.Outcome State Fault Refusal :=
  .next (takeCommand kindStartProving ownerStartProving s)

/-- END_PROVING. -/
def execEndProving (s : State) : Host.Outcome State Fault Refusal :=
  .next (takeCommand kindEndProving ownerEndProving s)

/-- RELOAD_IMAGE (R41): taken with processing on or off. -/
def execReloadImage (s : State) : Host.Outcome State Fault Refusal :=
  match frontCommand s with
  | some (c, rest) =>
    if commandKind c.word = kindReloadImage then .next (startReload c (beginJob rest true none none s)) else .next s
  | none => .next s

/-- RESYNC_DIGEST. -/
def execResyncDigest (s : State) : Host.Outcome State Fault Refusal :=
  .next (takeCommand kindResyncDigest ownerResyncDigest s)

/-- ARM_CAPTURE. -/
def execArmCapture (s : State) : Host.Outcome State Fault Refusal :=
  .next (takeCommand kindArmCapture ownerArmCapture s)

/-- CLEAR_FAULTS. -/
def execClearFaults (s : State) : Host.Outcome State Fault Refusal :=
  .next (takeCommand kindClearFaults ownerClearFaults s)

/-- RESET_SEGMENT. -/
def execResetSegment (s : State) : Host.Outcome State Fault Refusal :=
  .next (takeCommand kindResetSegment ownerResetSegment s)

/-- UNKNOWN_COMMAND: a command item whose kind is 0 or 10-15, refused whatever processing enable is (R183). -/
def execUnknownCommand (s : State) : Host.Outcome State Fault Refusal :=
  match frontCommand s with
  | some (c, rest) =>
    if knownKind (commandKind c.word) then .next s
    else .next (runJob [] (commandEnd c .unknownCommand) (beginJob rest true none none s))
  | none => .next s

/-! ### Frame items and markers -/

/-- TAKE_FRAME_ITEM: enabled while the engine has no item in hand and a frame item stands at the front (R111, R119). -/
def execTakeFrameItem (s : State) : Host.Outcome State Fault Refusal :=
  match s.engine.job, s.engine.workQueue with
  | none, .frame item :: rest => .next (takeFrame item rest s)
  | _, _ => .next s

/-- TAKE_WINDOW_CLOSE_MARKER: enabled while the engine has no item in hand and a marker stands at the front (R111, R125). -/
def execTakeWindowCloseMarker (s : State) : Host.Outcome State Fault Refusal :=
  match s.engine.job, s.engine.workQueue with
  | none, .marker :: rest => .next (takeMarker rest s)
  | _, _ => .next s

end Sys2Proof.Machine
end

