-- ==== Sys2Proof/Machine/Timer.lean ====
section
/-! DEFINITION. The Window Timer (R112, R110, R37). -/
namespace Sys2Proof.Machine

/-- A marker is in the work queue. -/
def markerQueued (s : State) : Bool := s.engine.workQueue.any (fun it => it == .marker)

/-- A window-close marker is offered (R110). -/
def offerMarker (s : State) : State :=
  if markerQueued s then { s with engine := { s.engine with lateWindows := s.engine.lateWindows + 1 } }
  else { s with engine := { s.engine with workQueue := s.engine.workQueue ++ [.marker] } }

/-- The period of the window being timed has not run out. -/
def countBelowPeriod (t : TimerState) : Bool :=
  match t.period with
  | some p => decide (t.count.toNat < p.toNat)
  | none => false

/-- The count has reached the period. -/
def countAtPeriod (t : TimerState) : Bool :=
  match t.period with
  | some p => t.count == p
  | none => false

/-- MILLISECOND_COUNT_ADVANCE: while RUNNING and below the period; at the period the expiry comes first (log 25). -/
def execMillisecondCountAdvance (s : State) : Host.Outcome State Fault Refusal :=
  if s.timer.running && countBelowPeriod s.timer then
    .next { s with timer := { s.timer with count := s.timer.count + 1 } }
  else .next s

/-- WINDOW_PERIOD_EXPIRY: the marker is offered, the count becomes 0, and the period loaded at that moment is that of the
next window. -/
def execWindowPeriodExpiry (s : State) : Host.Outcome State Fault Refusal :=
  if s.timer.running && countAtPeriod s.timer then
    let s1 := offerMarker s
    .next { s1 with timer := { s1.timer with count := 0, period := some s1.inEffect.period } }
  else .next s

end Sys2Proof.Machine
end

