-- ==== Sys2Proof/Machine/Bus.lean ====
section
/-! DEFINITION. The station-bus transactions as they arrive (R1, R3, R4, R6 to R12, R14 to R17, R23, R29, R181, R189): screening,
decode, and what the transaction then waits for. -/
namespace Sys2Proof.Machine

/-- The memory access that a transaction is issued as when it passes unchanged (R6, R7, R8, R14, R16). -/
def Transaction.plainAccess (t : Transaction) : Access :=
  match t.kind with
  | .read => ⟨.read, t.size, t.addr, 0, 0⟩
  | .write => ⟨.write, t.size, t.addr, t.data0, 0⟩
  | .pairRead => ⟨.pairRead, .word, t.addr, 0, 0⟩
  | .pairWrite => ⟨.pairWrite, .word, t.addr, t.data0, t.data1⟩
  | .lockRead | .vectorRead => ⟨.read, .word, t.addr, 0, 0⟩
  | .lockWrite => ⟨.write, .word, t.addr, t.data0, 0⟩

/-- The transaction becomes the current one (R1). Until a rule decides otherwise it is to pass unchanged. -/
def becomeCurrent (t : Transaction) (s : State) : State :=
  { s with path := { s.path with current := some ⟨t, .pass t.plainAccess []⟩, completion := none } }

/-! ### Screening (R3) -/

def unlock (s : State) : State := { s with path := { s.path with lock := none } }

/-- The word address the master holds locked, if any (R3 case 1). -/
def lockedWordOf (tag : Fin 8) (s : State) : Option Addr :=
  match s.path.lock with
  | some (holder, a) => if holder = tag then some a else none
  | none => none

/-- The locked-master rule (R15). -/
def lockedMaster (t : Transaction) (a : Addr) (s : State) : State :=
  if t.kind = .lockWrite ∧ t.addr = a then setPhase (.locked 0) s else refuse t .lockBroken (unlock s)

/-- The lowest code in the pending set (R189). -/
def lowestCause (irq : BitVec 6) : Option Cause :=
  if irq.getLsbD 0 then some .fault
  else if irq.getLsbD 1 then some .condition
  else if irq.getLsbD 2 then some .matched
  else if irq.getLsbD 3 then some .digest
  else if irq.getLsbD 4 then some .proving
  else if irq.getLsbD 5 then some .command
  else none

def Cause.code : Cause → BitVec 8
  | .fault => 0 | .condition => 1 | .matched => 2 | .digest => 3 | .proving => 4 | .command => 5

/-- The vector, in the low 8 bits of the word (R23, R189). -/
def vectorFor (base : BitVec 8) (c : Option Cause) : Word :=
  (base + (match c with
    | some c => c.code
    | none => 7)).setWidth 32

/-- The cause named leaves the pending set (R189). -/
def dropCause (c : Option Cause) (irq : BitVec 6) : BitVec 6 :=
  match c with
  | some c => irq &&& ~~~c.mask
  | none => irq

/-- The Interrupt Unit answers the read (R189). -/
def answerVector (s : State) : State :=
  let c := lowestCause s.irq
  complete .done [vectorFor s.inEffect.vectorBase c] { s with irq := dropCause c s.irq }

/-- Screening (R3); `decode` handles a transaction that no case of it decides. -/
def screen (t : Transaction) (decode : State → State) (s : State) : State :=
  match lockedWordOf t.tag s with
  | some a => lockedMaster t a s
  | none =>
    match t.kind with
    | .vectorRead => answerVector s
    | .lockWrite => refuse t .lockBroken s
    | .lockRead =>
      if s.path.yield then complete .yield [] s
      else if s.path.lock.isSome then complete .retry [] s
      else decode s
    | .read | .write | .pairRead | .pairWrite => if s.path.yield then complete .yield [] s else decode s

/-- The arrival of a transaction. A misaligned one is not carried by the bus (log 2); one that arrives while another is
current waits outside the part (R1, log 1). -/
def arrive (t : Transaction) (fits : Bool) (decode : State → State) (s : State) : Host.Outcome State Fault Refusal :=
  if fits then
    if s.path.current.isSome then .next s else .next (screen t decode (becomeCurrent t s))
  else .refused .misaligned

/-! ### Writes (R8 to R10) -/

/-- A write into the sample windows: each word that lies in one is held by the Frame Assembler and takes its role; a byte or
half write tears its master's open frame (R48, R49, R59). Words outside every window pass unchanged. -/
def holdForAssembler (t : Transaction) (s : State) : State :=
  match t.kind, t.size with
  | .pairWrite, _ =>
    let (w0, holds0, s1) := holdFirst t.tag t.addr t.data0 s
    let (w1, holds1, s2) := holdSecond t.tag (nextWord t.addr) t.data1 holds0 s1
    setPhase (.pass { t.plainAccess with data0 := w0, data1 := w1 } holds1) s2
  | .write, .word =>
    let (w0, holds0, s1) := holdFirst t.tag t.addr t.data0 s
    setPhase (.pass { t.plainAccess with data0 := w0 } holds0) s1
  | _, _ => if (windowOf s (wordOf t.addr)).isSome then tear t.tag s else s

/-- What a control-area write is held for, with the words of the entry it carries, or the command word (R9, R27, R29). -/
def heldFor (t : Transaction) (s : State) : Option (Purpose × List Word) :=
  match controlOffset s t.addr with
  | none => none
  | some off =>
    match commitAt off, commandAt off with
    | some pos, _ => some (.commit pos, [t.data0])
    | none, some slot => some (.command slot, [t.data0])
    | none, none =>
      if t.kind = .pairWrite then
        match commitAt (off + 4), commandAt (off + 4) with
        | some pos, _ => some (.commit pos, [t.data0, t.data1])
        | none, some slot => some (.command slot, [t.data1])
        | none, none => none
      else none

/-- The words that are to be fetched (R12, R29). -/
def fetchLength (purpose : Purpose) (carried : List Word) : Nat :=
  match purpose with
  | .commit pos => pos.words - carried.length
  | .command _ => 6

def startFetch (purpose : Purpose) (carried : List Word) (s : State) : State :=
  setPhase (.fetch purpose (Fetch.start (fetchLength purpose carried)) carried) s

/-- The offer of a command (R181). -/
def offerCommand (slot : Fin 8) (carried : List Word) (s : State) : State :=
  if s.cmd.accepted.get slot = true ∨ Config.workQueueRefuse ≤ s.engine.workQueue.length then complete .retry [] s
  else startFetch (.command slot) carried { s with cmd := { s.cmd with granted := some slot } }

/-- A write whose words pass the checks of R10. -/
def holdForFetch (t : Transaction) (s : State) : State :=
  match heldFor t s with
  | some (.commit pos, carried) => startFetch (.commit pos) carried s
  | some (.command slot, carried) => offerCommand slot carried s
  | none => holdForAssembler t s

/-- A WRITE or PAIR WRITE, decoded: the checks of R10 when a word of it lies in the control area. -/
def decodeWrite (t : Transaction) (s : State) : State :=
  if (wordsOf t).any (isControl s) then
    if t.tag.val ≠ s.path.controlTag.toNat then refuse t .controlFromOtherMaster s
    else if t.size ≠ .word then refuse t .subwordControl s
    else if (wordsOf t).any (isOwned s) then refuse t .ownedWrite s
    else holdForFetch t s
  else holdForAssembler t s

/-- A LOCK READ, decoded (R10 case 1, R14, R49). -/
def decodeLockRead (t : Transaction) (s : State) : State :=
  if isControl s t.addr then refuse t .lockedControl s
  else if (windowOf s t.addr).isSome then tear t.tag s
  else s

/-! ### The commands -/

/-- READ (R6). -/
def execRead (tag : Fin 8) (addr : Addr) (size : Size) (s : State) : Host.Outcome State Fault Refusal :=
  arrive ⟨tag, .read, addr, size, 0, 0⟩ (aligned size addr) (fun x => x) s

/-- WRITE (R6, R9, R10). -/
def execWrite (tag : Fin 8) (addr : Addr) (size : Size) (data : Word) (s : State) : Host.Outcome State Fault Refusal :=
  let t : Transaction := ⟨tag, .write, addr, size, data, 0⟩
  arrive t (aligned size addr) (decodeWrite t) s

/-- PAIR_READ (R7). -/
def execPairRead (tag : Fin 8) (addr : Addr) (s : State) : Host.Outcome State Fault Refusal :=
  arrive ⟨tag, .pairRead, addr, .word, 0, 0⟩ (aligned .word addr) (fun x => x) s

/-- PAIR_WRITE (R8, R9, R10). -/
def execPairWrite (tag : Fin 8) (addr : Addr) (data0 data1 : Word) (s : State) : Host.Outcome State Fault Refusal :=
  let t : Transaction := ⟨tag, .pairWrite, addr, .word, data0, data1⟩
  arrive t (aligned .word addr) (decodeWrite t) s

/-- LOCK_READ (R14). -/
def execLockRead (tag : Fin 8) (addr : Addr) (s : State) : Host.Outcome State Fault Refusal :=
  let t : Transaction := ⟨tag, .lockRead, addr, .word, 0, 0⟩
  arrive t (aligned .word addr) (decodeLockRead t) s

/-- LOCK_WRITE (R15 to R17): screening decides it. -/
def execLockWrite (tag : Fin 8) (addr : Addr) (data : Word) (s : State) : Host.Outcome State Fault Refusal :=
  arrive ⟨tag, .lockWrite, addr, .word, data, 0⟩ (aligned .word addr) (fun x => x) s

/-- VECTOR_READ (R23, R189): the address carries no meaning. -/
def execVectorRead (tag : Fin 8) (addr : Addr) (s : State) : Host.Outcome State Fault Refusal :=
  arrive ⟨tag, .vectorRead, addr, .word, 0, 0⟩ true (fun x => x) s

end Sys2Proof.Machine
end

