-- ==== Sys2Proof/Machine/Port.lean ====
section
/-! DEFINITION. The memory-port arbiter (R19): the claimants and the access each has ready, the consultation of the Publisher
at the grant of a read (R11), and the beginning of an own item (R162, R163, R168). -/
namespace Sys2Proof.Machine

/-! ### Own items (R163) -/

/-- Word `i` of a publication: word 0 and the last word carry the sequence (R168). -/
def publishWord (sequence : BitVec 16) (content : List Word) (i : Nat) : Word :=
  if i = 0 ∨ i + 1 = content.length then wordAt content i ||| put sequence.toNat 0 else wordAt content i

/-- Access `k` of a ring entry at `base`: words 1-2, 3-4, 5-6, then word 7, then word 0. -/
def ringAccess (s : State) (base : Nat) (words : List Word) (k : Nat) : Access :=
  if k < 3 then
    ⟨.pairWrite, .word, controlAddr s (base + 4 + 8 * k), wordAt words (1 + 2 * k), wordAt words (2 + 2 * k)⟩
  else if k = 3 then ⟨.write, .word, controlAddr s (base + 28), wordAt words 7, 0⟩
  else ⟨.write, .word, controlAddr s base, wordAt words 0, 0⟩

/-- Offset of the status word of a slot (R4). -/
def statusOffset (slot : Fin 8) : Nat := Config.slotOffset + 32 * slot.val + 24

/-- The access at hand of an own item. -/
def ownAccess (s : State) (it : OwnItem) (pr : Progress) : Access :=
  match it with
  | .publish r content =>
    let k := pr.finished
    let word := publishWord (s.pub.records.get r).sequence content
    ⟨.pairWrite, .word, controlAddr s (recordOffset r + 8 * k), word (2 * k), word (2 * k + 1)⟩
  | .digest position words => ringAccess s (Config.digestOffset + 32 * position) words pr.finished
  | .outbound position words => ringAccess s (Config.outboundOffset + 32 * position.toNat) words pr.finished
  | .status slot word => ⟨.write, .word, controlAddr s (statusOffset slot), word, 0⟩
  | .fetch pos => pr.fetch.access (controlAddr s pos.offset)

/-- Accesses of a write item (R163). -/
def OwnItem.count : OwnItem → Nat
  | .publish _ content => content.length / 2
  | .digest _ _ | .outbound _ _ => 5
  | .status _ _ => 1
  | .fetch pos => pos.words / 2

/-- No access of the item is finished. -/
def OwnItem.start (it : OwnItem) : Progress :=
  match it with
  | .fetch pos => ⟨0, Fetch.start pos.words⟩
  | .publish _ _ | .digest _ _ | .outbound _ _ | .status _ _ => ⟨0, Fetch.start 0⟩

/-- The publication state of a record whose item begins (R168). -/
def PubRecord.begin (x : PubRecord) : PubRecord :=
  ⟨.inUpdate, if x.mark = .queued then .none else x.mark, x.sequence + 1⟩

/-- The oldest own item begins (R162). -/
def beginItem (it : OwnItem) (s : State) : State :=
  let s1 := { s with pub := { s.pub with begun := some it.start } }
  match it with
  | .publish r _ => setRecord r (s.pub.records.get r).begin s1
  | .digest _ _ | .outbound _ _ | .status _ _ | .fetch _ => s1

/-! ### Claimants (R19) -/

/-- Address of the first word a fetch reads. -/
def fetchBase (s : State) : Purpose → Addr
  | .commit pos => controlAddr s pos.offset
  | .command slot => controlAddr s (Config.slotOffset + 32 * slot.val)

/-- The access the current transaction has ready. -/
def phaseAccess (s : State) (c : Current) : Issuer × Access :=
  match c.phase with
  | .pass access _ => (.passThrough, access)
  | .fetch purpose f _ => (.fetch, f.access (fetchBase s purpose))
  | .held _ _ _ => (.heldWrite, c.txn.plainAccess)
  | .locked _ => (.lockedWrite, c.txn.plainAccess)

def issue (issuer : Issuer) (access : Access) (s : State) : State :=
  { s with path := { s.path with port := some ⟨issuer, access, false⟩ } }

/-- The word belongs to a protected record that is IN UPDATE or TORN (R11, R166). -/
def unreadable (s : State) (a : Addr) : Bool :=
  match controlOffset s a with
  | none => false
  | some off =>
    match recordAt off with
    | none => false
    | some r => (s.pub.records.get r).write != .current

def isRead : TxnKind → Bool
  | .read | .pairRead => true
  | .write | .pairWrite | .lockRead | .lockWrite | .vectorRead => false

/-- The transaction is a write that is to pass to memory. -/
def passesWrite (c : Current) : Bool :=
  match c.txn.kind, c.phase with
  | .write, .pass _ _ | .pairWrite, .pass _ _ => true
  | _, _ => false

/-- The pass-through claimant is granted: a read of an unreadable record is answered RETRY with no access (R11), and a
write whose words have become owned while it waited is refused, as it would be on arrival (R10, R39, log 31). -/
def grantPass (c : Current) (s : State) : State :=
  if isRead c.txn.kind && (wordsOf c.txn).any (unreadable s) then complete .retry [] s
  else if passesWrite c && (wordsOf c.txn).any (isOwned s) then refuse c.txn .ownedWrite s
  else
    let (issuer, access) := phaseAccess s c
    issue issuer access s

/-- The own claimant is granted: its item begins at its first access. -/
def grantOwn (it : OwnItem) (s : State) : State :=
  match s.pub.begun with
  | some pr => issue .own (ownAccess s it pr) s
  | none =>
    let s1 := beginItem it s
    issue .own (ownAccess s1 it it.start) s1

/-- The grant of a free port (R19). -/
def grantPort (s : State) : State :=
  match s.path.current, s.pub.queue with
  | some c, [] => grantPass c s
  | some c, it :: _ => if s.path.lock.isNone && s.path.yield then grantOwn it s else grantPass c s
  | none, it :: _ => if s.path.lock.isSome then s else grantOwn it s
  | none, [] => s

/-- PORT_GRANT. -/
def execPortGrant (s : State) : Host.Outcome State Fault Refusal :=
  .next (if s.path.port.isNone then grantPort s else s)

end Sys2Proof.Machine
end

