-- ==== Sys2Proof/Machine/Responses.lean ====
section
/-! DEFINITION. Memory's responses (R5): to pass-through accesses (R6 to R8, R14, R173), fetches (R12), held writes (R13, R31,
R182), the locked write (R16) and own accesses (R20, R42, R165). -/
namespace Sys2Proof.Machine

/-- A response arrives for the access on the port. A response of another issuer's kind changes nothing (log 1); one that a
bus reset discards frees the port (R25, log 22). -/
def respond (issuer : Issuer) (take : Access → State → State) (s : State) : State :=
  match s.path.port with
  | none => s
  | some p =>
    if p.issuer = issuer then
      if p.discarded then freePort s else take p.access (freePort s)
    else s

/-! ### Pass-through (R6 to R8, R14) -/

/-- The digest position whose release word lies at this offset (R173): entry k takes the 32 bytes from 0x4000 + 32 k. -/
def releasePosition (size off : Nat) : Option Nat :=
  if off % 32 = 28 ∧ 512 ≤ off / 32 ∧ off / 32 - 512 < size then some (off / 32 - 512) else none

/-- How many positions after the oldest a position lies. -/
def ringIndex (size oldest position : Nat) : Nat := (position + size - oldest) % size

/-- Release up to the entry of index `i`, when it is WRITTEN (R173). -/
def releaseEntries (i : Nat) (s : State) : State :=
  let d := s.pub.digest
  match d.occupied[i]? with
  | some e =>
    if e.written then
      { s with pub := { s.pub with
          digest := { d with oldest := (d.oldest + i + 1) % s.inEffect.ringSize, occupied := d.occupied.drop (i + 1) }
          digestAbandoned := s.pub.digestAbandoned + BitVec.ofNat 32 i } }
    else s
  | none => s

/-- A read of the control area is reported to the Publisher (R11, R173). -/
def reportRead (a : Addr) (s : State) : State :=
  match controlOffset s (wordOf a) with
  | none => s
  | some off =>
    match releasePosition s.inEffect.ringSize off with
    | none => s
    | some position => releaseEntries (ringIndex s.inEffect.ringSize s.pub.digest.oldest position) s

/-- The completion of a response that is not DONE (R6 to R8, R14). -/
def failCode : Answer → Code
  | .fault => .fault
  | .done | .retry | .retryFault => .retry

/-- A pass-through access is answered. -/
def passResponse (t : Transaction) (holds : List WordHold) (first second : Response) (s : State) : State :=
  if first.answer = .done then
    match t.kind with
    | .read => complete .done [first.data] (reportRead t.addr s)
    | .pairRead =>
      if second.answer = .done then complete .done [first.data, second.data] (reportRead t.addr s)
      else complete .doneFirst [first.data] (reportRead t.addr s)
    | .lockRead => complete .done [first.data] { s with path := { s.path with lock := some (t.tag, t.addr) } }
    | .write | .pairWrite => complete .done [] (settleWords t.tag holds s)
    | .lockWrite | .vectorRead => complete .done [] s
  else complete (failCode first.answer) [] s

/-- PASS_THROUGH_RESPONSE: `second` answers the second word of a PAIR READ and is disregarded otherwise. -/
def execPassThroughResponse (first second : Response) (s : State) : Host.Outcome State Fault Refusal :=
  .next (respond .passThrough (fun _ s =>
    match s.path.current with
    | some ⟨t, .pass _ holds⟩ => passResponse t holds first second s
    | _ => s) s)

/-! ### Fetches (R12, R30) -/

def releasePlace (s : State) : State := { s with cmd := { s.cmd with granted := none } }

def setSizePending (b : Bool) (s : State) : State :=
  { s with pub := { s.pub with digest := { s.pub.digest with sizePending := b } } }

/-- The complete entry is decided (R30, R31, R39); the arguments go to the Command Unit (R182). -/
def fetchDone (t : Transaction) (purpose : Purpose) (words : List Word) (s : State) : State :=
  match purpose with
  | .command _ => setPhase (.held purpose words 0) s
  | .commit pos =>
    match decideEntry s pos words with
    | .refused reason => refuseHeld t reason s
    | .accepted =>
      setPhase (.held purpose words 0) (if changesRingSize s pos words then setSizePending true s else s)

/-- FETCH_ACCESS_RESPONSE. -/
def execFetchAccessResponse (first second : Response) (s : State) : Host.Outcome State Fault Refusal :=
  .next (respond .fetch (fun _ s =>
    match s.path.current with
    | some ⟨t, .fetch purpose f carried⟩ =>
      match f.respond first second with
      | .fails => refuseHeld t .ownAccessFailed (releasePlace s)
      | .goesOn f1 =>
        if f1.complete then fetchDone t purpose (f1.got ++ carried) s else setPhase (.fetch purpose f1 carried) s
    | _ => s) s)

/-! ### Held writes (R13, R31, R182) -/

/-- A command item joins the work queue and its slot becomes ACCEPTED (R182): the last of the words is the command
word. -/
def queueCommand (slot : Fin 8) (words : List Word) (s : State) : State :=
  { s with
    engine := { s.engine with
      workQueue := s.engine.workQueue ++ [.command ⟨slot, wordAt words 6, words.take 6⟩] }
    cmd := ⟨upd s.cmd.accepted slot true, none⟩ }

/-- The held write is DONE. -/
def heldDone (purpose : Purpose) (words : List Word) (s : State) : State :=
  match purpose with
  | .commit pos => complete .done [] (loadEntry pos words (setSizePending false s))
  | .command slot => complete .done [] (queueCommand slot words s)

/-- The held write fails (R13, R39, R182). -/
def heldFails (t : Transaction) (s : State) : State :=
  refuseHeld t .ownAccessFailed (setSizePending false (releasePlace s))

/-- HELD_WRITE_RESPONSE. -/
def execHeldWriteResponse (r : Response) (s : State) : Host.Outcome State Fault Refusal :=
  .next (respond .heldWrite (fun _ s =>
    match s.path.current with
    | some ⟨t, .held purpose words attempts⟩ =>
      match r.answer with
      | .done => heldDone purpose words s
      | .retry | .retryFault =>
        if attempts + 1 < Config.attempts then setPhase (.held purpose words (attempts + 1)) s else heldFails t s
      | .fault => heldFails t s
    | _ => s) s)

/-! ### The locked write (R16) -/

/-- LOCKED_WRITE_RESPONSE: memory's FAULT is not captured. -/
def execLockedWriteResponse (r : Response) (s : State) : Host.Outcome State Fault Refusal :=
  .next (respond .lockedWrite (fun _ s =>
    match s.path.current with
    | some ⟨_, .locked attempts⟩ =>
      match r.answer with
      | .done => complete .done [] (unlock s)
      | .retry | .retryFault =>
        if attempts + 1 < Config.attempts then setPhase (.locked (attempts + 1)) s
        else complete .fault [] (unlock s)
      | .fault => complete .fault [] (unlock s)
    | _ => s) s)

/-! ### Own accesses (R20, R165) -/

/-- A slot enters the owed status list, once (R165). -/
def oweStatus (slot : Fin 8) (word : Word) (s : State) : State :=
  if s.pub.owedStatus.any (fun x => x.1 == slot) then s
  else { s with pub := { s.pub with owedStatus := s.pub.owedStatus ++ [(slot, word)] } }

/-- The index of the entry that a DIGEST item was offered for (R171): the occupied entry at the item's position with the
sequence of the item's head. An item whose entry a change of ring size has freed has none (log 24). -/
def entryOfItem (s : State) (position : Nat) (words : List Word) : Option Nat :=
  let i := ringIndex s.inEffect.ringSize s.pub.digest.oldest position
  if position < s.inEffect.ringSize
      ∧ (s.pub.digest.occupied[i]?).map (·.sequence) = some (digestSequence (wordAt words 0)) then some i
  else none

/-- The entry of a DIGEST item that has finished or failed becomes WRITTEN (R172). -/
def entryWritten (position : Nat) (words : List Word) (s : State) : State :=
  match entryOfItem s position words with
  | some i =>
    { s with pub := { s.pub with digest := { s.pub.digest with
        occupied := s.pub.digest.occupied.modify i (fun e => { e with written := true }) } } }
  | none => s

/-- One more FETCH item of the reload is finished (R41, R43). -/
def countReload (refused failed : Nat) (s : State) : State :=
  { s with engine := { s.engine with
      reload := s.engine.reload.map (fun r => ⟨r.finished + 1, r.refused + refused, r.failed + failed⟩) } }

/-- A FETCH item whose last word is read is decided, and the outcome takes effect at once (R42). -/
def decideFetch (pos : EntryPos) (words : List Word) (s : State) : State :=
  match decideEntry s pos words with
  | .accepted => countReload 0 0 (loadEntry pos words s)
  | .refused _ => countReload 1 0 s

/-- A slot's status has been written (R185). -/
def statusWritten (slot : Fin 8) (s : State) : State :=
  raiseCause .command { s with cmd := { s.cmd with accepted := upd s.cmd.accepted slot false } }

/-- What a finished item does (R165); `got` are the words a FETCH item read. -/
def itemFinished (it : OwnItem) (got : List Word) (s : State) : State :=
  match it with
  | .publish r _ => setRecord r { s.pub.records.get r with write := .current } s
  | .digest position words => entryWritten position words s
  | .outbound _ _ => s
  | .status slot _ => statusWritten slot s
  | .fetch pos => decideFetch pos got s

/-- The publication state of a record whose item failed (R169). -/
def PubRecord.failed (x : PubRecord) : PubRecord :=
  { x with write := .torn, mark := if x.mark = .none then .owed else x.mark }

/-- What a failed item does (R165). -/
def itemFailed (it : OwnItem) (s : State) : State :=
  match it with
  | .publish r _ => setRecord r (s.pub.records.get r).failed s
  | .digest position words => entryWritten position words s
  | .outbound _ _ => s
  | .status slot word => oweStatus slot word s
  | .fetch _ => countReload 0 1 s

/-- The item leaves the queue and has its effect; an image reload that waits for its last item goes on (R43, log 14). -/
def finishItem (it : OwnItem) (words : List Word) (s : State) : State :=
  resumeEngine (itemFinished it words (leaveQueue s))

/-- The failure is captured (R20, R21), the item leaves the queue and is handled by its kind. -/
def failItem (it : OwnItem) (access : Access) (s : State) : State :=
  resumeEngine (itemFailed it (leaveQueue (captureAccess partTag it.faultKind .word access.addr .ownAccessFailed s)))

def setProgress (pr : Progress) (s : State) : State := { s with pub := { s.pub with begun := some pr } }

/-- A FETCH item's access is answered (R42). -/
def ownFetchResponse (it : OwnItem) (pr : Progress) (access : Access) (first second : Response) (s : State) : State :=
  match pr.fetch.respond first second with
  | .fails => failItem it access s
  | .goesOn f => if f.complete then finishItem it f.got s else setProgress ⟨pr.finished, f⟩ s

/-- A write item's access is answered (R20). -/
def ownWriteResponse (it : OwnItem) (pr : Progress) (access : Access) (first : Response) (s : State) : State :=
  match first.answer with
  | .done =>
    if pr.finished + 1 < it.count then setProgress ⟨pr.finished + 1, Fetch.start 0⟩ s else finishItem it [] s
  | .retry | .retryFault =>
    if pr.fetch.attempts + 1 < Config.attempts then
      setProgress ⟨pr.finished, { pr.fetch with attempts := pr.fetch.attempts + 1 }⟩ s
    else failItem it access s
  | .fault => failItem it access s

/-- OWN_ACCESS_RESPONSE: `second` answers the second word of a PAIR READ and is disregarded otherwise. -/
def execOwnAccessResponse (first second : Response) (s : State) : Host.Outcome State Fault Refusal :=
  .next (respond .own (fun access s =>
    match s.pub.queue, s.pub.begun with
    | it :: _, some pr =>
      match it with
      | .fetch _ => ownFetchResponse it pr access first second s
      | .publish _ _ | .digest _ _ | .outbound _ _ | .status _ _ => ownWriteResponse it pr access first s
    | _, _ => s) s)

end Sys2Proof.Machine
end

