-- ==== Sys2Proof/Machine/Places.lean ====
section
/-! DEFINITION. The giving of a free place in the own-access queue (R164). -/
namespace Sys2Proof.Machine

/-- The 28 record numbers in ascending order. -/
def recordNumbers : List (Fin 28) := (List.range 28).map (Fin.ofNat 28)

/-- The OWED record of lowest number. -/
def lowestOwed (s : State) : Option (Fin 28) := recordNumbers.find? (fun r => (s.pub.records.get r).mark == .owed)

/-- The slot of lowest number in the owed status list, with its word. -/
def lowestOwedStatus (s : State) : Option (Fin 8 × Word) :=
  allSlots.findSome? (fun slot => s.pub.owedStatus.find? (fun x => x.1 == slot))

/-- The DIGEST item of the oldest reservation joins. -/
def giveToDigest (h : HeldDigest) (rest : List HeldDigest) (s : State) : State :=
  joinQueue (.digest h.position h.words) { s with pub := { s.pub with heldDigests := rest } }

/-- The waiting producer's item joins. -/
def giveToEngine (o : Offer) (s : State) : State := joinOffer o (modifyJob (fun j => { j with offer := none }) s)

/-- An OWED record's PUBLISH item joins with the content as it stands (R167). -/
def giveToRecord (r : Fin 28) (s : State) : State :=
  setRecord r { s.pub.records.get r with mark := .queued } (joinQueue (.publish r (recordContent s r)) s)

/-- An owed status joins. -/
def giveToStatus (slot : Fin 8) (word : Word) (s : State) : State :=
  joinQueue (.status slot word)
    { s with pub := { s.pub with owedStatus := s.pub.owedStatus.filter (fun x => x.1 != slot) } }

/-- A free place goes to the first held-back item that is present (R164). -/
def givePlace (s : State) : State :=
  match s.pub.heldDigests, engineOffer s, lowestOwed s, lowestOwedStatus s with
  | h :: rest, _, _, _ => giveToDigest h rest s
  | [], some o, _, _ => giveToEngine o s
  | [], none, some r, _ => giveToRecord r s
  | [], none, none, some (slot, word) => giveToStatus slot word s
  | [], none, none, none => s

/-- QUEUE_PLACE_GIVEN: the place is given and a producer that waited for it goes on. -/
def execQueuePlaceGiven (s : State) : Host.Outcome State Fault Refusal :=
  .next (if hasRoom s then resumeEngine (givePlace s) else s)

end Sys2Proof.Machine
end

