-- ==== Sys2Proof/Machine/Resets.lean ====
section
/-! DEFINITION. Power-on reset (R24) and bus reset (R25, R63, R131, R132, R160, R178, R179, R186, R190). -/
namespace Sys2Proof.Machine

/-- POWER_ON_RESET: the commands that wait outside the part stay (log 27). -/
def execPowerOnReset (baseStraps : BitVec 4) (tagStraps : BitVec 3) (s : State) : Host.Outcome State Fault Refusal :=
  .next { State.powerOn baseStraps tagStraps with pending := s.pending }

/-! ### The blocks' parts of a bus reset -/

/-- The Path Controller, the granted place and the pending causes (R25, R186, R190). -/
def resetPath (s : State) : State :=
  { s with
    path := { s.path with
      current := none
      lock := none
      yield := false
      port := s.path.port.map (fun p => { p with discarded := true })
      completion := none }
    cmd := { s.cmd with granted := none }
    irq := 0 }

/-- An OPEN frame is discarded, not counted, and its target marked (R63). -/
def discardFrame (s : State) (tag : Fin 8) : State :=
  match s.asm.records.get tag with
  | none => s
  | some f => mark (targetOf (f.kind == kindSummary) f.lookup) (setAssembly tag none s)

/-- A work-queue item is dropped (R131). -/
def dropItem (s : State) (it : WorkItem) : State :=
  match it with
  | .frame f =>
    mark (targetOf f.isSummary f.lookup)
      { s with engine := { s.engine with droppedByReset := s.engine.droppedByReset + 1 } }
  | .command _ | .marker => s

/-- The work queue is emptied; a queued marker is placed back (R131). -/
def resetWorkQueue (s : State) : State :=
  let s1 := s.engine.workQueue.foldl dropItem s
  { s1 with engine := { s1.engine with workQueue := s.engine.workQueue.filter (fun it => it == .marker) } }

/-- An enabled point's base flag is cleared and its window marked (R132). -/
def resetPoint (s : State) (p : Fin 16) : State :=
  if s.pointEnabled p then mark (.point p) (modifyPoint p (fun r => { r with baseFlag := false }) s) else s

/-- R178. -/
def PubRecord.busReset (x : PubRecord) : PubRecord :=
  match x.write with
  | .inUpdate => { x with write := .torn, mark := .owed }
  | .current | .torn => { x with mark := if x.mark = .queued then .owed else x.mark }

/-- A STATUS item dropped from the queue puts its slot into the owed status list (R178). -/
def oweDropped (s : State) (it : OwnItem) : State :=
  match it with
  | .status slot word => oweStatus slot word s
  | .publish _ _ | .digest _ _ | .outbound _ _ | .fetch _ => s

/-- The own-access queue is emptied (R178). -/
def resetPublisher (s : State) : State :=
  let s1 := s.pub.queue.foldl oweDropped s
  { s1 with pub := { s1.pub with
      queue := []
      begun := none
      records := s.pub.records.map PubRecord.busReset } }

/-- Records that the reset makes TORN (R175). -/
def tornByReset (s : State) : Nat := s.pub.records.toList.countP (fun r => r.write == .inUpdate)

/-- RESERVED entries, oldest first. -/
def reservedEntries (d : DigestRing) : List DigestEntry := d.occupied.filter (fun e => !e.written)

/-- The digest rollback (R179). -/
def rollbackRing (d : DigestRing) : DigestRing :=
  match reservedEntries d with
  | [] => { d with sizePending := false }
  | e :: rest =>
    { d with
      occupied := d.occupied.filter (·.written)
      nextSequence := e.sequence
      lost := saturate8 (e.lost.toNat + (rest.length + 1))
      sizePending := false }

def resetDigest (s : State) : State :=
  { s with pub := { s.pub with
      digest := rollbackRing s.pub.digest
      heldDigests := []
      digestLost := s.pub.digestLost + BitVec.ofNat 32 (reservedEntries s.pub.digest).length } }

/-- The status of a command lost from the work queue (R131, R186). -/
def lostCommand (s : State) (it : WorkItem) : State :=
  match it with
  | .command c =>
    let word := statusWord c.word .reset 0 0
    if hasRoom s then joinQueue (.status c.slot word) s else oweStatus c.slot word s
  | .frame _ | .marker => s

def reserveRestart (returned torn : Nat) (s : State) : State :=
  reserve .other .restart (restartBody true s.engine.windowNumber returned torn) s

def reserveProving (s : State) : State :=
  reserve .other .proving (provingBody s.proving s.engine.windowNumber) s

/-- The RESTART record, and the end of a run in progress (R160, R179); the order of the two reservations is the
operand's. The proving record's publication is asked for after both (log 7). -/
def reportReset (provingFirst : Bool) (returned torn : Nat) (s : State) : State :=
  if provingInProgress s then
    let s1 := setProving (abortRun .reset s.proving) s
    let s2 := if provingFirst then reserveRestart returned torn (reserveProving s1)
      else reserveProving (reserveRestart returned torn s1)
    raiseCause .proving (requestPublication provingRecordNo s2)
  else reserveRestart returned torn s

/-- The slot and command word of the reload in hand. -/
def reloadCommand : List Stage → Option (Fin 8 × Word)
  | [] => none
  | .reloadEnd slot word :: _ => some (slot, word)
  | _ :: rest => reloadCommand rest

/-- An image reload ends: its FETCH item that waits for room is dropped, and its status is REFUSED with reason RESET
(R43). -/
def endReload (j : Job) (s : State) : State :=
  let acts : List Act := match reloadCommand j.stages with
    | some (slot, word) => [.offer (.status slot (statusWord word .reset 0 0)), .await]
    | none => []
  setJob (some { j with acts := acts, stages := [], offer := none })
    { s with engine := { s.engine with reload := none } }

/-- A waiting producer's STATUS or OUTBOUND item is offered again to the emptied queue (R178). -/
def offerAgain (j : Job) (s : State) : State :=
  match j.offer with
  | some o => if hasRoom s then giveToEngine o s else s
  | none => s

/-- The engine's item in hand after the reset (R131, R43, R178); it goes on as far as it can. -/
def resetEngine (s : State) : State :=
  match s.engine.job with
  | none => { s with engine := { s.engine with reload := none } }
  | some j => resumeEngine (if s.engine.reload.isSome then endReload j s else offerAgain j s)

/-- The whole of a bus reset. -/
def busReset (provingFirst : Bool) (s : State) : State :=
  let returned := (reservedEntries s.pub.digest).length
  let torn := tornByReset s
  let s1 := allTags.foldl discardFrame (resetPath s)
  let s2 := allPoints.foldl resetPoint (resetWorkQueue s1)
  let s3 := reportReset provingFirst returned torn (resetDigest (resetPublisher s2))
  resetEngine (s.engine.workQueue.foldl lostCommand s3)

/-- BUS_RESET. -/
def execBusReset (provingFirst : Bool) (s : State) : Host.Outcome State Fault Refusal :=
  .next (busReset provingFirst s)

end Sys2Proof.Machine
end

