-- ==== Sys2Proof/Machine/Dispatch.lean ====
section
/-! DEFINITION. The meaning of every command: one arm per constructor, each one call. -/
namespace Sys2Proof.Machine

def exec (i : Instr) (s : State) : Host.Outcome State Fault Refusal :=
  match i with
  | .powerOnReset baseStraps tagStraps => Sys2Proof.Machine.execPowerOnReset baseStraps tagStraps s
  | .busReset provingFirst => Sys2Proof.Machine.execBusReset provingFirst s
  | .read tag addr size => Sys2Proof.Machine.execRead tag addr size s
  | .write tag addr size data => Sys2Proof.Machine.execWrite tag addr size data s
  | .pairRead tag addr => Sys2Proof.Machine.execPairRead tag addr s
  | .pairWrite tag addr data0 data1 => Sys2Proof.Machine.execPairWrite tag addr data0 data1 s
  | .lockRead tag addr => Sys2Proof.Machine.execLockRead tag addr s
  | .lockWrite tag addr data => Sys2Proof.Machine.execLockWrite tag addr data s
  | .vectorRead tag addr => Sys2Proof.Machine.execVectorRead tag addr s
  | .portGrant => Sys2Proof.Machine.execPortGrant s
  | .passThroughResponse first second => Sys2Proof.Machine.execPassThroughResponse first second s
  | .fetchAccessResponse first second => Sys2Proof.Machine.execFetchAccessResponse first second s
  | .heldWriteResponse r => Sys2Proof.Machine.execHeldWriteResponse r s
  | .lockedWriteResponse r => Sys2Proof.Machine.execLockedWriteResponse r s
  | .ownAccessResponse first second => Sys2Proof.Machine.execOwnAccessResponse first second s
  | .windowPeriodExpiry => Sys2Proof.Machine.execWindowPeriodExpiry s
  | .queuePlaceGiven => Sys2Proof.Machine.execQueuePlaceGiven s
  | .takeFrameItem => Sys2Proof.Machine.execTakeFrameItem s
  | .takeWindowCloseMarker => Sys2Proof.Machine.execTakeWindowCloseMarker s
  | .clearTotals => Sys2Proof.Machine.execClearTotals s
  | .ackConditions => Sys2Proof.Machine.execAckConditions s
  | .startProving => Sys2Proof.Machine.execStartProving s
  | .endProving => Sys2Proof.Machine.execEndProving s
  | .reloadImage => Sys2Proof.Machine.execReloadImage s
  | .resyncDigest => Sys2Proof.Machine.execResyncDigest s
  | .armCapture => Sys2Proof.Machine.execArmCapture s
  | .clearFaults => Sys2Proof.Machine.execClearFaults s
  | .resetSegment => Sys2Proof.Machine.execResetSegment s
  | .unknownCommand => Sys2Proof.Machine.execUnknownCommand s
  | .millisecondCountAdvance => Sys2Proof.Machine.execMillisecondCountAdvance s

end Sys2Proof.Machine
end

