-- ==== Sys2Proof/Safety.lean ====
section
/-! DEFINITION. What the statements speak of: the frame of a step whose only other effects are reports, and the predicates
that every step keeps. -/
namespace Sys2Proof.Machine

/-! ### Frames -/

/-- `t` differs from `e` at most in what reporting writes: the Publisher, the pending causes, the yield indication, and what
the engine still has in hand. -/
structure ReportsFrom (e t : State) : Prop where
  path : t.path = { e.path with yield := t.path.yield }
  asm : t.asm = e.asm
  cls : t.cls = e.cls
  arith : t.arith = e.arith
  settings : t.settings = e.settings
  engine : t.engine = { e.engine with job := t.engine.job }
  timer : t.timer = e.timer
  balance : t.balance = e.balance
  proving : t.proving = e.proving
  cmd : t.cmd = e.cmd
  pending : t.pending = e.pending

/-- The command completes: it answers a next state that is `e` but for reports. -/
def RunsTo (i : Instr) (s e : State) : Prop := ∃ t, exec i s = .next t ∧ ReportsFrom e t

/-- The transaction is current and waits as `phase` says; nothing else happened. -/
def waiting (t : Transaction) (phase : Phase) (s : State) : State :=
  { s with path := { s.path with current := some ⟨t, phase⟩, completion := none } }

/-- The transaction of this tag has been given its completion; nothing else happened. -/
def answered (tag : Fin 8) (code : Code) (data : List Word) (s : State) : State :=
  { s with path := { s.path with current := none, completion := some ⟨tag, code, data⟩ } }

/-- The access fault record after a capture request (R21). -/
def afterCapture (old : Option AccessFault) (tag : BitVec 4) (kind : FaultKind) (size : Size) (addr : Addr)
    (reason : FaultReason) : AccessFault :=
  match old with
  | none => ⟨tag, kind, size, addr, reason, 0⟩
  | some f => { f with further := if f.further = 255 then 255 else f.further + 1 }

/-- A publication of the record has been asked for and not yet begun. -/
def Asked (r : Fin 28) (t : State) : Prop := (t.pub.records.get r).mark ≠ .none

/-- A word whose fields hold these numbers at these lowest bits, and whose other bits are 0 (R191). -/
def packed (fields : List (Nat × Nat)) : Word := BitVec.ofNat 32 (fields.map (fun x => x.1 * 2 ^ x.2)).sum

/-- A FAULT digest record with this body is reserved and the FAULT cause set (R21, R106, R171). The reservation is that of
the state before: with one place free, its DIGEST item takes it before the publication, the model's choice (log 36). -/
def FaultReserved (body : List Word) (s t : State) : Prop :=
  let r := reserve .other .fault body s
  t.irq = (1#6 &&& s.inEffect.causeEnable) ||| r.irq
    ∧ t.pub.digest = r.pub.digest ∧ t.pub.digestLost = r.pub.digestLost ∧ t.pub.heldDigests = r.pub.heldDigests
    ∧ ∀ position words, OwnItem.digest position words ∈ r.pub.queue → OwnItem.digest position words ∈ t.pub.queue

/-- The body of the FAULT record of a capture: source ACCESS and the record's words 1 to 3 (Tables 11-13, 11-15). -/
def accessFaultBody (f : AccessFault) : List Word :=
  [0, packed [(f.tag.toNat, 0), (f.kind.code, 8), (sizeCode f.size, 12), (f.reason.code, 16)], f.addr.setWidth 32, 0]

/-- What a capture of `f` reports, by the access fault record as it stood (R21): a capture that fills it sets the cause and
reserves a record (in the order of log 36), one that changes it asks for its publication, and one at further count 255 does
nothing. -/
def CaptureReported (old : Option AccessFault) (f : AccessFault) (s t : State) : Prop :=
  (old = none → FaultReserved (accessFaultBody f) s t ∧ Asked accessFaultRecordNo t)
    ∧ ∀ x, old = some x → t.irq = s.irq ∧ t.pub.digest = s.pub.digest
      ∧ (x.further ≠ 255 → Asked accessFaultRecordNo t) ∧ (x.further = 255 → t.pub = s.pub)

/-- The transaction of this tag was answered FAULT with this reason captured, and nothing else happened but the reports of the
capture. -/
def FaultedWith (s t : State) (tag : Fin 8) (captured : BitVec 4) (kind : FaultKind) (size : Size) (addr : Addr)
    (reason : FaultReason) : Prop :=
  ReportsFrom (answered tag .fault []
    { s with path := { s.path with fault := some (afterCapture s.path.fault captured kind size addr reason) } }) t
    ∧ CaptureReported s.path.fault ⟨captured, kind, size, addr, reason, 0⟩ s t

/-- The command answers its transaction FAULT, with the refusal of a transaction `t` captured (R21). -/
def Faults (i : Instr) (s : State) (t : Transaction) (reason : FaultReason) : Prop :=
  ∃ s', exec i s = .next s' ∧ FaultedWith s s' t.tag (tagOf t.tag) t.kind.faultKind t.size t.addr reason

/-- A digest record asked for: its kind, its body and its release word. -/
structure Report where
  kind : DigestKind
  body : List Word
  release : Word
deriving DecidableEq, Repr

/-- The digest ring of this size after these records were asked for in turn, the DIGEST items of those kept, and the number
of those lost (R171). -/
def ringAfter (size : Nat) (d : DigestRing) : List Report → DigestRing × List OwnItem × Nat
  | [] => (d, [], 0)
  | x :: rest =>
    if d.sizePending = false ∧ d.occupied.length < size then
      let r := ringAfter size { d with
        occupied := d.occupied ++ [⟨false, d.nextSequence, d.lost⟩], nextSequence := d.nextSequence + 1, lost := 0 } rest
      (r.1, .digest ((d.oldest + d.occupied.length) % size)
        (digestWords (digestHead x.kind d.lost d.nextSequence) x.body x.release) :: r.2.1, r.2.2)
    else
      let r := ringAfter size { d with lost := BitVec.ofNat 8 (min (d.lost.toNat + 1) 255) } rest
      (r.1, r.2.1, r.2.2 + 1)

/-- These records were reserved, in this order, and no other: each kept, its DIGEST item queued or held back, or lost
(R171, R164). -/
def Reported (reports : List Report) (s t : State) : Prop :=
  let r := ringAfter s.inEffect.ringSize s.pub.digest reports
  t.pub.digest = r.1 ∧ t.pub.digestLost = s.pub.digestLost + BitVec.ofNat 32 r.2.2
    ∧ ∀ position words, OwnItem.digest position words ∈ r.2.1 →
      OwnItem.digest position words ∈ t.pub.queue ∨ ∃ byEngine, ⟨position, words, byEngine⟩ ∈ t.pub.heldDigests

/-- Nothing the engine offered is held back, and the own-access queue has places for the DIGEST items of the records kept among
these, for so many PUBLISH items, and for one item more, so that the engine need not wait (R164). -/
def PlacesFor (reports : List Report) (publications : Nat) (s : State) : Prop :=
  let kept := (ringAfter s.inEffect.ringSize s.pub.digest reports).2.1
  s.pub.heldDigests.any (·.byEngine) = false ∧ (kept = [] ∨ s.pub.heldDigests = [])
    ∧ s.pub.queue.length + kept.length + publications < 32

/-- The STATUS item of a command that reserves these records and asks for so many publications (R185): with places for them
all it joins at once, behind them, and the engine has done with the command; otherwise it stands in the own-access queue
once nothing is in hand. -/
def StatusFollows (slot : Fin 8) (word : Word) (reports : List Report) (publications : Nat) (s t : State) : Prop :=
  (t.engine.job = none → OwnItem.status slot word ∈ t.pub.queue)
    ∧ (PlacesFor reports publications s →
      t.engine.job = none ∧ t.pub.queue.getLast? = some (.status slot word))

/-- The engine is free to take an item, and this command stands at the front (R111). -/
def CommandInFront (c : CommandItem) (rest : List WorkItem) (s : State) : Prop :=
  s.engine.job = none ∧ s.engine.workQueue = .command c :: rest

/-- The part can take a transaction of this tag, and screening reaches decode (R1, R3). -/
def OpenTo (tag : Fin 8) (s : State) : Prop :=
  s.path.current = none ∧ lockedWordOf tag s = none ∧ s.path.yield = false

/-! ### What every step keeps -/

/-- R187: the pending set holds no cause outside the enable set. -/
def CausesEnabled (s : State) : Prop := s.irq &&& ~~~s.inEffect.causeEnable = 0

def isMarker (it : WorkItem) : Bool :=
  match it with
  | .marker => true
  | .frame _ | .command _ => false

def isFrame (it : WorkItem) : Bool :=
  match it with
  | .frame _ => true
  | .command _ | .marker => false

/-- Frame and command items in the work queue. -/
def frameCommandItems (s : State) : Nat := s.engine.workQueue.countP (fun it => !isMarker it)

/-- A command write holds a granted place (R180, R181). -/
def commandWriteHeld (s : State) : Bool :=
  match s.path.current with
  | some ⟨_, .fetch (.command _) _ _⟩ => true
  | some ⟨_, .held (.command _) _ _⟩ => true
  | _ => false

/-- R108, with the place that R181 promises. -/
def WorkQueueBounded (s : State) : Prop :=
  frameCommandItems s ≤ 15 ∧ s.engine.workQueue.countP isMarker ≤ 1
    ∧ (commandWriteHeld s = true → frameCommandItems s ≤ 14)

/-- R130: the law of frame counts, modulo 2^32. -/
def FrameLaw (s : State) : Prop :=
  s.asm.closed = s.asm.overrun + s.asm.checkFailed + s.engine.processed + s.engine.droppedByReset
    + BitVec.ofNat 32 (s.engine.workQueue.countP isFrame)

/-- R162, R18: at most 32 items, and yield between its two thresholds. -/
def OwnQueueBounded (s : State) : Prop :=
  s.pub.queue.length ≤ 32 ∧ (s.path.yield = true → 8 < s.pub.queue.length)
    ∧ (s.path.yield = false → s.pub.queue.length < 24)

/-- Items of the own-access queue that have not begun (R162). -/
def unbegun (s : State) : List OwnItem := if s.pub.begun.isSome then s.pub.queue.tail else s.pub.queue

def publishes (r : Fin 28) (it : OwnItem) : Bool :=
  match it with
  | .publish r' _ => r' == r
  | .digest _ _ | .outbound _ _ | .status _ _ | .fetch _ => false

/-- R167: at most one publication item of a record has not begun, one exactly while its mark is QUEUED. -/
def MarksAgree (s : State) : Prop :=
  (s.pub.begun.isSome = true → s.pub.queue ≠ [])
    ∧ ∀ r, (unbegun s).countP (publishes r) = if (s.pub.records.get r).mark = .queued then 1 else 0

/-- R170, R173: the occupied entries number no more than the ring size, the oldest position is in the ring, and the size
is one of those of Table 2-4. -/
def DigestBounded (s : State) : Prop :=
  s.pub.digest.occupied.length ≤ s.inEffect.ringSize ∧ s.pub.digest.oldest < s.inEffect.ringSize
    ∧ s.inEffect.ringSize ≤ 256

/-- R142 to R145, Table 7-2: the lag queue and the ring are within L and M of the loaded entry, the counts within its K, all
three within their ranges, and LOSS and GAIN are never both present. -/
def SegmentSound (e : Option SegmentEntry) (g : Segment) : Prop :=
  (match e with
    | some e => g.lag.length ≤ e.lag ∧ g.ring.length ≤ e.span ∧ g.loss ≤ e.persistence ∧ g.gain ≤ e.persistence
        ∧ g.clear ≤ e.persistence ∧ e.lag ≤ 31 ∧ e.span ≤ 16 ∧ e.persistence ≤ 15
    | none => g.lag = [] ∧ g.ring = [] ∧ g.loss = 0 ∧ g.gain = 0 ∧ g.clear = 0)
    ∧ g.conditions &&& (segLoss ||| segGain) ≠ segLoss ||| segGain

def SegmentsSound (s : State) : Prop :=
  ∀ g, SegmentSound (s.balance.entries.get g).entry (s.balance.segments.get g)

/-- R82: an armed entry is LOADED with capture mode NEXT. -/
def ArmedSound (s : State) : Prop := ∀ e, s.cls.armed.get e = true → armable (s.cls.entries.get e).entry = true

/-- R180: a granted place belongs to a FREE slot. -/
def GrantSound (s : State) : Prop := ∀ slot, s.cmd.granted = some slot → s.cmd.accepted.get slot = false

/-- No commit of the point entry `p` waits for its held write. -/
def noPendingPoint (p : Fin 16) (s : State) : Prop :=
  match s.path.current with
  | some ⟨_, .held (.commit (.point x)) _ _⟩ => x ≠ p
  | _ => True

/-- R159, R151: while a run is in progress its two points differ and are enabled, and no commit that waits for its held
write would change either. -/
def ProvingSound (s : State) : Prop :=
  provingInProgress s = true →
    s.proving.test ≠ s.proving.reference
      ∧ s.pointEnabled s.proving.test = true ∧ s.pointEnabled s.proving.reference = true
      ∧ noPendingPoint s.proving.test s ∧ noPendingPoint s.proving.reference s

end Sys2Proof.Machine
end

