-- ==== Sys2Proof/Certificates/Slice0/Obligations.lean ====
section
/-! DEFINITION. The statements. -/

open Sys2Proof Sys2Proof.Machine

/-! ### The queue and the resets -/

/-- The command at the front runs with the queue's rest. The queue is the model's form of a block, its choice (log 3). -/
def Obligations.StepRunsFrontCommand : Prop :=
  ∀ (c : Instr) (rest : List Instr) (s : State), s.pending = c :: rest → step s = exec c { s with pending := rest }

/-- R24, R28, R47, R64, R77, R92, R106, R108, R112, R114, R126, R127, R130, R139, R150, R162, R166, R170, R180, R190.
That the waiting commands are kept is the model's choice (log 27). The last completion is the model's own field (log
16). -/
def Obligations.PowerOnResetValues : Prop :=
  ∀ (base : BitVec 4) (tag : BitVec 3) (s : State), ∃ t, exec (.powerOnReset base tag) s = .next t
    ∧ t.path = ⟨base, tag, none, none, false, none, none, none⟩
    ∧ (∀ m, t.asm.records.get m = none)
    ∧ t.asm.closed = 0 ∧ t.asm.checkFailed = 0 ∧ t.asm.overrun = 0 ∧ t.asm.torn = 0
    ∧ (∀ e, t.cls.entries.get e = ⟨0, none⟩ ∧ t.cls.armed.get e = false)
    ∧ (∀ i, t.cls.checkers.get i = ⟨0, none⟩) ∧ t.cls.band = ⟨0, none⟩ ∧ (∀ i, t.cls.hits.get i = 0)
    ∧ (∀ i, t.arith.conversions.get i = ⟨0, none⟩) ∧ t.arith.fault = none
    ∧ t.settings = ⟨0, none⟩ ∧ t.inEffect.enable = false ∧ t.inEffect.ringSize = 16 ∧ t.inEffect.threshold = 16
    ∧ t.inEffect.causeEnable = 0 ∧ t.inEffect.potency = kInvalid ||| kOverflow ∧ t.inEffect.hopLimit = 1
    ∧ t.engine.workQueue = [] ∧ t.engine.job = none ∧ t.engine.reload = none ∧ t.engine.windowNumber = 0
    ∧ (∀ p, t.engine.pointEntries.get p = ⟨0, none⟩
      ∧ t.engine.points.get p = ⟨0, 0, false, 0, 0, false, 0, 0, 0, 0, ⟨0, 0, 0, 0, false, false, false⟩, 0, 0, false, 0,
        ⟨0, 0, 0, false, false⟩⟩)
    ∧ (∀ r, t.engine.slotEntries.get r = ⟨0, none⟩
      ∧ t.engine.slots.get r = ⟨0, 0, 0, false, false, 0, 0, false⟩)
    ∧ t.engine.processed = 0 ∧ t.engine.unclassified = 0 ∧ t.engine.toDisabledPoint = 0
    ∧ t.engine.droppedByReset = 0 ∧ t.engine.lateWindows = 0
    ∧ t.timer = ⟨false, 0, none⟩
    ∧ (∀ g, t.balance.entries.get g = ⟨0, none⟩
      ∧ t.balance.segments.get g = ⟨.disabled, [], [], 0, 0, 0, 0, 0, none, none⟩)
    ∧ t.balance.relayed = 0 ∧ t.balance.relayDropped = 0
    ∧ t.proving = ⟨.idle, 0, 0, 0, 0, 0, 0, 0, 0, 0, 0, 0, 0, 0, false, false, .none⟩
    ∧ t.pub.queue = [] ∧ t.pub.begun = none ∧ (∀ r, t.pub.records.get r = ⟨.current, .none, 0⟩)
    ∧ t.pub.owedStatus = [] ∧ t.pub.digest = ⟨0, [], 0, 0, false⟩ ∧ t.pub.heldDigests = []
    ∧ t.pub.outboundIndex = 0 ∧ t.pub.digestLost = 0 ∧ t.pub.digestAbandoned = 0
    ∧ (∀ slot, t.cmd.accepted.get slot = false) ∧ t.cmd.granted = none
    ∧ t.irq = 0 ∧ t.irqLine = false
    ∧ t.pending = s.pending

/-- R25, R28, R63, R131, R180, R186: what a bus reset drops and keeps, whatever the engine has in hand. The last
completion is the model's own field (log 16). That the access on the port stays there until its discarded response
comes (log 22), and that the waiting commands are kept (log 27), are the model's reading and choice. -/
def Obligations.BusResetDropsAndKeeps : Prop :=
  ∀ (provingFirst : Bool) (s : State), ∃ t, exec (.busReset provingFirst) s = .next t
    ∧ t.path = { s.path with
        current := none
        lock := none
        yield := t.path.yield
        port := s.path.port.map (fun p => { p with discarded := true })
        completion := none }
    ∧ (∀ m, t.asm.records.get m = none)
    ∧ t.asm.closed = s.asm.closed ∧ t.asm.checkFailed = s.asm.checkFailed ∧ t.asm.overrun = s.asm.overrun
    ∧ t.asm.torn = s.asm.torn
    ∧ t.cls.entries = s.cls.entries ∧ t.cls.checkers = s.cls.checkers ∧ t.cls.band = s.cls.band
    ∧ t.arith.conversions = s.arith.conversions ∧ t.settings = s.settings ∧ t.timer = s.timer
    ∧ t.engine.pointEntries = s.engine.pointEntries ∧ t.engine.slotEntries = s.engine.slotEntries
    ∧ t.balance.entries = s.balance.entries
    ∧ t.engine.workQueue = s.engine.workQueue.filter isMarker
    ∧ t.engine.reload = none
    ∧ t.cmd = { s.cmd with granted := none }
    ∧ t.pending = s.pending

/-- The causes pending after a bus reset that ended in `t`, of the reset's own reports alone: DIGEST with the ring at its
threshold, and PROVING of a run it aborts (R190, R171, R160). -/
def resetCauses (s t : State) : BitVec 6 :=
  ((if s.inEffect.threshold ≤ t.pub.digest.occupied.length then Cause.digest.mask else 0)
    ||| (if provingInProgress s then Cause.proving.mask else 0)) &&& s.inEffect.causeEnable

/-- R63, R131, R132, R160, R77, R107, R190: with nothing in the engine's hand, the records a bus reset changes and those it
keeps: an enabled slot is marked exactly when it is the target of an open frame or of a dropped item. The pending set is
emptied, and holds the enabled causes of the reset's own reports. That the engine goes on within the reset is the model's
choice (log 7). -/
def Obligations.BusResetRecords : Prop :=
  ∀ (provingFirst : Bool) (s : State), s.engine.job = none →
    ∃ t, exec (.busReset provingFirst) s = .next t
      ∧ t.engine = { s.engine with
          workQueue := s.engine.workQueue.filter isMarker
          droppedByReset := s.engine.droppedByReset + BitVec.ofNat 32 (s.engine.workQueue.countP isFrame)
          reload := none
          points := t.engine.points
          slots := t.engine.slots }
      ∧ (∀ p, t.engine.points.get p =
          if s.pointEnabled p then
            { s.engine.points.get p with
              baseFlag := false
              window := { (s.engine.points.get p).window with volumeComplete := false, solidsComplete := false } }
          else s.engine.points.get p)
      ∧ (∀ r,
          let lost := slotEnabled (s.engine.slotEntries.get r).entry = true
            ∧ ((∃ m f, s.asm.records.get m = some f ∧ targetOf (f.kind == kindSummary) f.lookup = .slot r)
              ∨ ∃ f, WorkItem.frame f ∈ s.engine.workQueue ∧ targetOf f.isSummary f.lookup = .slot r)
          (lost → t.engine.slots.get r = { s.engine.slots.get r with allComplete := false })
            ∧ (¬lost → t.engine.slots.get r = s.engine.slots.get r))
      ∧ t.cls = s.cls ∧ t.arith = s.arith ∧ t.balance = s.balance ∧ t.irq = resetCauses s t
      ∧ t.proving =
          if provingInProgress s then { s.proving with run := .aborted, abort := .reset } else s.proving

/-- The entries of the digest ring that a bus reset keeps, and those it returns to FREE (R179). -/
def staying (s : State) : List DigestEntry := s.pub.digest.occupied.filter (·.written)
def returned (s : State) : List DigestEntry := s.pub.digest.occupied.filter (fun e => !e.written)

/-- The next sequence and the lost count after the returned entries, and `more` reservations lost after that (R179,
R171). -/
def restored (s : State) (more : Nat) : BitVec 16 × BitVec 8 :=
  match returned s with
  | [] => (s.pub.digest.nextSequence, BitVec.ofNat 8 (if more = 0 then s.pub.digest.lost.toNat
      else min (s.pub.digest.lost.toNat + more) 255))
  | e :: rest => (e.sequence, BitVec.ofNat 8 (min (e.lost.toNat + (rest.length + 1) + more) 255))

/-- The bodies of the records a bus reset reserves: RESTART with reason BUS RESET, and PROVING with the run ABORTED for
RESET (Table 11-15). -/
def resetBody (s : State) : List Word :=
  let torn := s.pub.records.toList.countP (fun r => r.write == .inUpdate)
  [1, s.engine.windowNumber, packed [((returned s).length, 0), (torn, 16)]]

def abortBody (s : State) : List Word :=
  [packed [(s.proving.number.toNat, 0), (4, 16), (3, 20)],
    packed [(s.proving.test.val, 0), (s.proving.reference.val, 4), (s.proving.elapsed.toNat, 8)], s.engine.windowNumber]

/-- The DIGEST item of a record reserved by a bus reset: `k` positions behind the entries that stay. -/
def resetItem (s : State) (k : Nat) (kind : DigestKind) (body : List Word) (lost : BitVec 8) (sequence : BitVec 16) :
    OwnItem :=
  .digest ((s.pub.digest.oldest + (staying s).length + k) % s.inEffect.ringSize)
    (digestWords (digestHead kind lost sequence) body (releaseWord s))

/-- R160, R175, R178, R179, R186, R131, with nothing in hand: the digest ring after a bus reset, with one record reserved
or, when a run is aborted, two in the order of the operand, each kept or lost as the entries that stay leave places; the
publication state of every record, the owed statuses, and the STATUS items of the commands in the work queue. The order
of what joins the emptied queue is the model's choice (log 7). With an item in the engine's hand, it goes on: a waiting
STATUS or OUTBOUND item is offered again and joins, a report that waited with its DIGEST item, which is discarded, sets its
cause and asks for its publication, and a reload in progress ends with its STATUS item REFUSED for RESET (R43); a run in
progress is ABORTED all the same. -/
def Obligations.BusResetPublisher : Prop :=
  (∀ (provingFirst : Bool) (s : State), s.engine.job = none → (staying s).length ≤ s.inEffect.ringSize →
      (returned s).length ≤ 256 →
      ∃ t, exec (.busReset provingFirst) s = .next t
        ∧ t.pub.heldDigests = [] ∧ t.pub.digestAbandoned = s.pub.digestAbandoned
        ∧ (let places := s.inEffect.ringSize - (staying s).length
           let d := { s.pub.digest with sizePending := false }
           let sequence := (restored s 0).1
           let lost := (restored s 0).2
           let count (n : Nat) : Word := s.pub.digestLost + BitVec.ofNat 32 ((returned s).length + n)
           let full (n : Nat) : Prop := t.pub.digest =
               { d with occupied := staying s, nextSequence := sequence, lost := (restored s n).2 }
             ∧ t.pub.digestLost = count n
           let restart (k : Nat) := resetItem s k .restart (resetBody s)
           let proving (k : Nat) := resetItem s k .proving (abortBody s)
           (provingInProgress s = false → 1 ≤ places →
             t.pub.digest =
                 { d with occupied := staying s ++ [⟨false, sequence, lost⟩], nextSequence := sequence + 1, lost := 0 }
               ∧ t.pub.digestLost = count 0
               ∧ t.pub.queue.head? = some (restart 0 lost sequence))
           ∧ (provingInProgress s = false → places = 0 → full 1)
           ∧ (provingInProgress s = true → 2 ≤ places →
             t.pub.digest =
                 { d with
                   occupied := staying s ++ [⟨false, sequence, lost⟩, ⟨false, sequence + 1, 0⟩]
                   nextSequence := sequence + 2
                   lost := 0 }
               ∧ t.pub.digestLost = count 0
               ∧ t.pub.queue.take 2 = (if provingFirst = true then
                   [proving 0 lost sequence, restart 1 0 (sequence + 1)]
                 else [restart 0 lost sequence, proving 1 0 (sequence + 1)]))
           ∧ (provingInProgress s = true → places = 1 →
             t.pub.digest =
                 { d with occupied := staying s ++ [⟨false, sequence, lost⟩], nextSequence := sequence + 1, lost := 1 }
               ∧ t.pub.digestLost = count 1
               ∧ t.pub.queue.head? = some (if provingFirst = true then proving 0 lost sequence
                 else restart 0 lost sequence))
           ∧ (provingInProgress s = true → places = 0 → full 2)))
  ∧ (∀ (provingFirst : Bool) (s : State), s.engine.job = none →
      ∃ t, exec (.busReset provingFirst) s = .next t
        ∧ t.pub.begun = none ∧ t.pub.outboundIndex = s.pub.outboundIndex
        ∧ (∀ r, (t.pub.records.get r).sequence = (s.pub.records.get r).sequence
            ∧ (t.pub.records.get r).write =
                (if (s.pub.records.get r).write = .inUpdate then .torn else (s.pub.records.get r).write)
            ∧ (r ≠ provingRecordNo ∨ provingInProgress s = false →
                (t.pub.records.get r).mark =
                  if (s.pub.records.get r).write = .inUpdate ∨ (s.pub.records.get r).mark = .queued then .owed
                  else (s.pub.records.get r).mark))
        ∧ (provingInProgress s = true → Asked provingRecordNo t)
        ∧ (∀ slot word, OwnItem.status slot word ∈ s.pub.queue →
            ∃ w, (slot, w) ∈ t.pub.owedStatus ∧ ((slot, w) ∈ s.pub.owedStatus ∨ OwnItem.status slot w ∈ s.pub.queue))
        ∧ (∀ x, x ∈ s.pub.owedStatus → x ∈ t.pub.owedStatus)
        ∧ (s.engine.workQueue.length ≤ 16 → ∀ c, WorkItem.command c ∈ s.engine.workQueue →
            OwnItem.status c.slot (statusWord c.word .reset 0 0) ∈ t.pub.queue))
  ∧ (∀ (provingFirst : Bool) (s : State) (j : Job), s.engine.job = some j → s.engine.workQueue.length ≤ 16 →
      ∃ t, exec (.busReset provingFirst) s = .next t
        ∧ t.pub.begun = none
        ∧ t.proving = (if provingInProgress s then { s.proving with run := .aborted, abort := .reset } else s.proving)
        ∧ (∀ r, (t.pub.records.get r).sequence = (s.pub.records.get r).sequence
            ∧ (t.pub.records.get r).write =
                (if (s.pub.records.get r).write = .inUpdate then .torn else (s.pub.records.get r).write)
            ∧ ((s.pub.records.get r).write = .inUpdate ∨ (s.pub.records.get r).mark ≠ .none → Asked r t))
        ∧ (∀ x, x ∈ s.pub.owedStatus → x ∈ t.pub.owedStatus)
        ∧ (∀ c, WorkItem.command c ∈ s.engine.workQueue →
            OwnItem.status c.slot (statusWord c.word .reset 0 0) ∈ t.pub.queue)
        ∧ (∀ slot word, s.engine.reload.isSome = true → j.stages = [.reloadEnd slot word] →
            OwnItem.status slot (statusWord word .reset 0 0) ∈ t.pub.queue ∧ t.engine.job = none ∧ t.irq = resetCauses s t)
        ∧ (s.engine.reload = none →
          (∀ slot word, j.offer = some (.status slot word) → OwnItem.status slot word ∈ t.pub.queue)
          ∧ (∀ frame, j.offer = some (.outbound frame) → OwnItem.outbound s.pub.outboundIndex frame ∈ t.pub.queue)
          ∧ (∀ cause record more, j.offer = none → j.acts = .await :: .cause cause :: .publish record :: more →
              Asked record t ∧ t.irq &&& (cause.mask &&& s.inEffect.causeEnable) = cause.mask &&& s.inEffect.causeEnable)
          ∧ (j.offer = none → j.acts = [.await] → j.stages = [] → t.engine.job = none ∧ t.irq = resetCauses s t)))

/-! ### Screening (Chapter 1) -/

/-- R3 case 4: while yield is on, a transaction is answered YIELD with no other effect. The completion is given in the
model's own field (log 16). The station bus carries no misaligned transaction (below Table 1-4); that it is
refused is the model's choice (log 2). -/
def Obligations.YieldAndMisalignedTurnedAway : Prop :=
  (∀ (s : State) (tag : Fin 8) (addr : Addr) (size : Size) (d0 d1 : Word),
      s.path.current = none → lockedWordOf tag s = none → s.path.yield = true →
      (aligned size addr = true →
        exec (.read tag addr size) s = .next (answered tag .yield [] s)
          ∧ exec (.write tag addr size d0) s = .next (answered tag .yield [] s))
      ∧ (aligned .word addr = true →
        exec (.pairRead tag addr) s = .next (answered tag .yield [] s)
          ∧ exec (.pairWrite tag addr d0 d1) s = .next (answered tag .yield [] s)
          ∧ exec (.lockRead tag addr) s = .next (answered tag .yield [] s)))
  ∧ (∀ (s : State) (tag : Fin 8) (addr : Addr) (size : Size) (d0 d1 : Word),
      (aligned size addr = false →
        exec (.read tag addr size) s = .refused .misaligned ∧ exec (.write tag addr size d0) s = .refused .misaligned)
      ∧ (aligned .word addr = false →
        exec (.pairRead tag addr) s = .refused .misaligned ∧ exec (.pairWrite tag addr d0 d1) s = .refused .misaligned
          ∧ exec (.lockRead tag addr) s = .refused .misaligned
          ∧ exec (.lockWrite tag addr d0) s = .refused .misaligned))

/-- R15: any transaction of the locked master but its LOCK WRITE to the locked word is answered FAULT, captured LOCK
BROKEN, and unlocks. That the capture of a VECTOR READ shows its address and size WORD is the model's choice (log
26), and so is which report of the capture takes a last free place of the own-access queue (log 36). -/
def Obligations.LockBrokenByLockedMaster : Prop :=
  ∀ (s : State) (tag : Fin 8) (a addr : Addr) (size : Size) (d0 d1 : Word),
    s.path.current = none → s.path.lock = some (tag, a) →
    let free : State := { s with path := { s.path with lock := none } }
    (aligned size addr = true →
      (∃ t, exec (.read tag addr size) s = .next t
          ∧ FaultedWith free t tag (tagOf tag) .read size addr .lockBroken)
      ∧ ∃ t, exec (.write tag addr size d0) s = .next t
          ∧ FaultedWith free t tag (tagOf tag) .write size addr .lockBroken)
    ∧ (aligned .word addr = true →
      (∃ t, exec (.pairRead tag addr) s = .next t
          ∧ FaultedWith free t tag (tagOf tag) .pairRead .word addr .lockBroken)
      ∧ (∃ t, exec (.pairWrite tag addr d0 d1) s = .next t
          ∧ FaultedWith free t tag (tagOf tag) .pairWrite .word addr .lockBroken)
      ∧ (∃ t, exec (.lockRead tag addr) s = .next t
          ∧ FaultedWith free t tag (tagOf tag) .lockRead .word addr .lockBroken)
      ∧ (addr ≠ a → ∃ t, exec (.lockWrite tag addr d0) s = .next t
          ∧ FaultedWith free t tag (tagOf tag) .lockWrite .word addr .lockBroken))
    ∧ ∃ t, exec (.vectorRead tag addr) s = .next t
        ∧ FaultedWith free t tag (tagOf tag) .vectorRead .word addr .lockBroken

/-- R15 to R17, R21: the LOCK WRITE of the locked master to the locked word waits for the port as the locked write; without
a lock it is answered FAULT, captured LOCK BROKEN, the lock state as it was; a LOCK READ while another master holds
the lock is answered RETRY with nothing else changed (yield off). The locked write is issued again up to 8 attempts;
DONE completes it, FAULT or the 8th RETRY faults it without capture, and either unlocks. Which report of a capture takes
a last free place of the own-access queue is the model's choice (log 36). -/
def Obligations.LockPairCarriedOut : Prop :=
  (∀ (s : State) (tag : Fin 8) (a : Addr) (d : Word),
      s.path.current = none → s.path.lock = some (tag, a) → aligned .word a = true →
      exec (.lockWrite tag a d) s = .next (waiting ⟨tag, .lockWrite, a, .word, d, 0⟩ (.locked 0) s))
  ∧ (∀ (s : State) (tag : Fin 8) (addr : Addr) (d : Word),
      s.path.current = none → lockedWordOf tag s = none → aligned .word addr = true →
      Faults (.lockWrite tag addr d) s ⟨tag, .lockWrite, addr, .word, d, 0⟩ .lockBroken
      ∧ (s.path.yield = false → s.path.lock.isSome = true →
          exec (.lockRead tag addr) s = .next (answered tag .retry [] s)))
  ∧ (∀ (s : State) (t : Transaction) (access : Access) (n : Nat) (r : Response),
      s.path.port = some ⟨.lockedWrite, access, false⟩ → s.path.current = some ⟨t, .locked n⟩ →
      let unlocked : State := { s with path := { s.path with port := none, lock := none } }
      let again := r.answer = .retry ∨ r.answer = .retryFault
      (r.answer = .done → exec (.lockedWriteResponse r) s = .next (answered t.tag .done [] unlocked))
      ∧ (again → n + 1 < 8 → exec (.lockedWriteResponse r) s =
          .next { s with path := { s.path with port := none, current := some ⟨t, .locked (n + 1)⟩ } })
      ∧ (r.answer = .fault ∨ (again ∧ 8 ≤ n + 1) →
          exec (.lockedWriteResponse r) s = .next (answered t.tag .fault [] unlocked)))

/-- R23, R189: the vector is the base plus the lowest pending code, which leaves the set, or the base plus 7. -/
def Obligations.VectorReadAnswers : Prop :=
  ∀ (s : State) (tag : Fin 8) (addr : Addr), s.path.current = none → lockedWordOf tag s = none →
    (s.irq = 0 → exec (.vectorRead tag addr) s =
      .next (answered tag .done [(s.inEffect.vectorBase + 7).setWidth 32] s))
    ∧ ∀ k : Fin 6, s.irq.getLsbD k = true → (∀ j : Fin 6, j < k → s.irq.getLsbD j = false) →
        exec (.vectorRead tag addr) s =
          .next (answered tag .done [(s.inEffect.vectorBase + BitVec.ofNat 8 k).setWidth 32]
            { s with irq := s.irq &&& ~~~(1#6 <<< k.val) })

/-! ### Decode and holding (Chapter 1) -/

/-- R6 to R9: a READ or PAIR READ waits for the port with its own access, whatever its region; so does a write whose
words lie in ordinary memory. R10 case 1, R14, R49: a LOCK READ of the control area is refused LOCKED CONTROL; elsewhere
it waits for the port, and in a sample window it first tears its master's open frame. The waiting transaction is the
current transaction; that the last completion, the model's own field, is cleared is the model's choice (log 16), and
so is which report of a capture takes a last free place of the own-access queue (log 36). -/
def Obligations.ReadsAndPlainWritesDecoded : Prop :=
  (∀ (s : State) (tag : Fin 8) (addr : Addr) (size : Size), OpenTo tag s →
      (aligned size addr = true → exec (.read tag addr size) s =
        .next (waiting ⟨tag, .read, addr, size, 0, 0⟩ (.pass ⟨.read, size, addr, 0, 0⟩ []) s))
      ∧ (aligned .word addr = true → exec (.pairRead tag addr) s =
        .next (waiting ⟨tag, .pairRead, addr, .word, 0, 0⟩ (.pass ⟨.pairRead, .word, addr, 0, 0⟩ []) s)))
  ∧ (∀ (s : State) (tag : Fin 8) (addr : Addr) (size : Size) (d0 d1 : Word), OpenTo tag s →
      isControl s (wordOf addr) = false → windowOf s (wordOf addr) = none →
      (aligned size addr = true → exec (.write tag addr size d0) s =
        .next (waiting ⟨tag, .write, addr, size, d0, 0⟩ (.pass ⟨.write, size, addr, d0, 0⟩ []) s))
      ∧ (aligned .word addr = true → isControl s (nextWord addr) = false → windowOf s (nextWord addr) = none →
          exec (.pairWrite tag addr d0 d1) s =
            .next (waiting ⟨tag, .pairWrite, addr, .word, d0, d1⟩ (.pass ⟨.pairWrite, .word, addr, d0, d1⟩ []) s)))
  ∧ (∀ (s : State) (tag : Fin 8) (addr : Addr), OpenTo tag s → s.path.lock = none → aligned .word addr = true →
      let t : Transaction := ⟨tag, .lockRead, addr, .word, 0, 0⟩
      let wait : State → State := waiting t (.pass ⟨.read, .word, addr, 0, 0⟩ [])
      (isControl s addr = true → Faults (.lockRead tag addr) s t .lockedControl)
      ∧ (isControl s addr = false → windowOf s addr = none → exec (.lockRead tag addr) s = .next (wait s))
      ∧ (isControl s addr = false → (windowOf s addr).isSome = true → s.asm.records.get tag = none →
          exec (.lockRead tag addr) s = .next (wait s))
      ∧ (∀ f, isControl s addr = false → (windowOf s addr).isSome = true → s.asm.records.get tag = some f →
          exec (.lockRead tag addr) s =
            .next (wait (mark (targetOf (f.kind == kindSummary) f.lookup)
              { s with asm := { s.asm with records := upd s.asm.records tag none, torn := s.asm.torn + 1 } }))))

/-- R10 cases 2 to 4: the refusals of a write to the control area, in their order. Which report of a capture takes a last
free place of the own-access queue is the model's choice (log 36). -/
def Obligations.ControlWriteRefused : Prop :=
  ∀ (s : State) (tag : Fin 8) (addr : Addr) (size : Size) (d0 d1 : Word), OpenTo tag s →
    let t : Transaction := ⟨tag, .write, addr, size, d0, 0⟩
    let pair : Transaction := ⟨tag, .pairWrite, addr, .word, d0, d1⟩
    (aligned size addr = true → isControl s (wordOf addr) = true →
      (tag.val ≠ s.path.controlTag.toNat → Faults (.write tag addr size d0) s t .controlFromOtherMaster)
      ∧ (tag.val = s.path.controlTag.toNat → size ≠ .word → Faults (.write tag addr size d0) s t .subwordControl)
      ∧ (tag.val = s.path.controlTag.toNat → size = .word → isOwned s (wordOf addr) = true →
          Faults (.write tag addr size d0) s t .ownedWrite))
    ∧ (aligned .word addr = true → isControl s addr = true ∨ isControl s (nextWord addr) = true →
      (tag.val ≠ s.path.controlTag.toNat → Faults (.pairWrite tag addr d0 d1) s pair .controlFromOtherMaster)
      ∧ (tag.val = s.path.controlTag.toNat → isOwned s addr = true ∨ isOwned s (nextWord addr) = true →
          Faults (.pairWrite tag addr d0 d1) s pair .ownedWrite))

/-- R9, R10 cases 5 and 6, R12, R29: a word WRITE of the control master to a word that is not owned is held for the
fetch of its entry when it is a commit word, and otherwise waits for the port; a PAIR WRITE carries its first word too
when the commit word is its second, and one whose words are neither commit nor command words waits for the port, be both, the
first or the second of them in the area (and the other in ordinary memory). A PAIR WRITE whose second word is a command
word is refused OWNED WRITE, since its first is the slot's status word (R4); which report of its capture takes a last free
place of the own-access queue is the model's choice (log 36). -/
def Obligations.CommitWriteHeld : Prop :=
  (∀ (s : State) (tag : Fin 8) (addr : Addr) (off : Nat) (slot : Fin 8) (d0 d1 : Word), OpenTo tag s →
    aligned .word addr = true → tag.val = s.path.controlTag.toNat → controlOffset s addr = some off →
    commandAt (off + 4) = some slot →
    Faults (.pairWrite tag addr d0 d1) s ⟨tag, .pairWrite, addr, .word, d0, d1⟩ .ownedWrite)
  ∧ (∀ (s : State) (tag : Fin 8) (addr : Addr) (d0 d1 : Word), OpenTo tag s → aligned .word addr = true →
    tag.val = s.path.controlTag.toNat → isControl s addr = false → windowOf s addr = none →
    isControl s (nextWord addr) = true → isOwned s (nextWord addr) = false →
    exec (.pairWrite tag addr d0 d1) s = .next
      (waiting ⟨tag, .pairWrite, addr, .word, d0, d1⟩ (.pass ⟨.pairWrite, .word, addr, d0, d1⟩ []) s))
  ∧ ∀ (s : State) (tag : Fin 8) (addr : Addr) (off : Nat) (d0 d1 : Word), OpenTo tag s → aligned .word addr = true →
    tag.val = s.path.controlTag.toNat → controlOffset s addr = some off → isOwned s addr = false →
    let t : Transaction := ⟨tag, .write, addr, .word, d0, 0⟩
    let pair : Transaction := ⟨tag, .pairWrite, addr, .word, d0, d1⟩
    (∀ pos, commitAt off = some pos →
      exec (.write tag addr .word d0) s =
        .next (waiting t (.fetch (.commit pos) ⟨pos.words - 1, [], 0, false⟩ [d0]) s))
    ∧ (commitAt off = none → commandAt off = none →
      exec (.write tag addr .word d0) s = .next (waiting t (.pass ⟨.write, .word, addr, d0, 0⟩ []) s))
    ∧ (isOwned s (nextWord addr) = false → ∀ pos, commitAt off = some pos →
      exec (.pairWrite tag addr d0 d1) s =
        .next (waiting pair (.fetch (.commit pos) ⟨pos.words - 1, [], 0, false⟩ [d0]) s))
    ∧ (isOwned s (nextWord addr) = false → commitAt off = none → commandAt off = none →
      ∀ pos, commitAt (off + 4) = some pos →
      exec (.pairWrite tag addr d0 d1) s =
        .next (waiting pair (.fetch (.commit pos) ⟨pos.words - 2, [], 0, false⟩ [d0, d1]) s))
    ∧ (windowOf s (nextWord addr) = none → isOwned s (nextWord addr) = false → commitAt off = none →
      commandAt off = none → commitAt (off + 4) = none → commandAt (off + 4) = none →
      exec (.pairWrite tag addr d0 d1) s = .next (waiting pair (.pass ⟨.pairWrite, .word, addr, d0, d1⟩ []) s))

/-- R181: a command word is answered RETRY when its slot is ACCEPTED or 15 items are queued; otherwise it is granted a
place and held for the fetch of six arguments. -/
def Obligations.CommandWriteOffered : Prop :=
  ∀ (s : State) (tag : Fin 8) (addr : Addr) (off : Nat) (slot : Fin 8) (d0 d1 : Word), OpenTo tag s →
    aligned .word addr = true → tag.val = s.path.controlTag.toNat → controlOffset s addr = some off →
    isOwned s addr = false → commandAt off = some slot →
    let t : Transaction := ⟨tag, .write, addr, .word, d0, 0⟩
    let pair : Transaction := ⟨tag, .pairWrite, addr, .word, d0, d1⟩
    let granted : State := { s with cmd := { s.cmd with granted := some slot } }
    (s.cmd.accepted.get slot = true ∨ 15 ≤ s.engine.workQueue.length →
      exec (.write tag addr .word d0) s = .next (answered tag .retry [] s)
        ∧ (isOwned s (nextWord addr) = false →
            exec (.pairWrite tag addr d0 d1) s = .next (answered tag .retry [] s)))
    ∧ (s.cmd.accepted.get slot = false → s.engine.workQueue.length < 15 →
      exec (.write tag addr .word d0) s =
          .next (waiting t (.fetch (.command slot) ⟨6, [], 0, false⟩ [d0]) granted)
        ∧ (isOwned s (nextWord addr) = false →
            exec (.pairWrite tag addr d0 d1) s =
              .next (waiting pair (.fetch (.command slot) ⟨6, [], 0, false⟩ [d0]) granted)))

/-! ### Sample windows (Chapter 3) -/

/-- The state after the open frame of this master is torn (R49). -/
def tornFrame (tag : Fin 8) (f : OpenFrame) (s : State) : State :=
  mark (targetOf (f.kind == kindSummary) f.lookup)
    { s with asm := { s.asm with records := upd s.asm.records tag none, torn := s.asm.torn + 1 } }

/-- What a head word `h` at `a` in window `w` opens (R50): its frame, and whether the frame fits its window. Under
CONVERTED the stored head of a frame that fits has bit 31 set and, by the model's reading of R191, 0 in the bits that no
table assigns (log 30). -/
def frameOpened (s : State) (tag : Fin 8) (w : Fin 4) (a : Addr) (h : Word) : OpenFrame × Bool :=
  let lookup := firstLookup s ⟨tag, w, h⟩
  let length := if headKind h = 8 then 8 else 4
  let fits : Bool := decide (a.toNat + 4 * length ≤
    (s.inEffect.windows.get w).base.toNat + (s.inEffect.windows.get w).length.toNat)
  let stored := if fits = true ∧ length = 4 ∧ lookup.any (fun l => l.action.store == .converted) = true
    then h &&& 0x0FFF01FF#32 ||| 0x80000000#32 else h
  (⟨a, w, headKind h, length, 1, [h], stored, none, lookup, none, 0⟩, fits)

/-- The word is a head where processing is on (R48). -/
def isHead (s : State) (a : Addr) (h : Word) : Prop := a.toNat % 16 = 0 ∧ headKind h ≠ 0 ∧ s.inEffect.enable = true

/-- The PAIR WRITE waits for the port, with the words memory is to receive and what the two words do at DONE (R59). -/
def pairWaits (tag : Fin 8) (addr : Addr) (d0 d1 stored0 stored1 : Word) (effect0 effect1 : WordEffect) (s : State) : State :=
  waiting ⟨tag, .pairWrite, addr, .word, d0, d1⟩ (.pass ⟨.pairWrite, .word, addr, stored0, stored1⟩
    [⟨addr, false, false, effect0⟩, ⟨nextWord addr, false, false, effect1⟩]) s

/-- R48, R50, R59: a head word is looked up and waits for the port, with the frame it is to open and whether that frame
fits its window; the second word of its pair is that frame's word 1, or a stray word when the frame does not fit. An
open frame of its master that did not expect the head is torn. That the stored head under CONVERTED follows R191 in the
bits that no table assigns is the model's reading (log 30). -/
def Obligations.HeadWordHeld : Prop :=
  ∀ (s : State) (tag : Fin 8) (addr : Addr) (w : Fin 4) (h : Word), OpenTo tag s →
    windowOf s addr = some w → isHead s addr h →
    let frame := (frameOpened s tag w addr h).1
    let fits := (frameOpened s tag w addr h).2
    let wait : State → State := waiting ⟨tag, .write, addr, .word, h, 0⟩
      (.pass ⟨.write, .word, addr, frame.storedHead, 0⟩ [⟨addr, false, false, .opens frame fits⟩])
    let pair (d : Word) : State → State := pairWaits tag addr h d frame.storedHead d (.opens frame fits)
      (if fits = true then .advances d else .nothing)
    (s.asm.records.get tag = none →
      exec (.write tag addr .word h) s = .next (wait s)
        ∧ ∀ d, (windowOf s (nextWord addr)).isSome = true → exec (.pairWrite tag addr h d) s = .next (pair d s))
    ∧ ∀ f, s.asm.records.get tag = some f → addr ≠ f.address + BitVec.ofNat 24 (4 * f.next) →
        exec (.write tag addr .word h) s = .next (wait (tornFrame tag f s))
          ∧ ∀ d, (windowOf s (nextWord addr)).isSome = true →
              exec (.pairWrite tag addr h d) s = .next (pair d (tornFrame tag f s))

/-- The converted value of a value word and the kinds of its CONVERSION step (R93), or NaN and INVALID for an UNLOADED
entry (R94). -/
def conversionOf (c : Option Conversion) (d : Word) : F64 × Kinds :=
  match c with
  | none => (f64NaN, kInvalid)
  | some c =>
    let raw : F64 × Kinds := match c.form with
      | .signed => (f64OfInt d.toInt, 0)
      | .unsigned => (f64OfInt d.toNat, 0)
      | .float => if f32IsNaN d = true then (f64NaN, kInvalid)
        else (widen d, if f32IsSubnormal d = true then kDenormal else 0)
    let scaled := fMul (held64 raw.1) (held32 c.scale)
    let offset := fAdd (held64 scaled.value) (held32 c.offset)
    let rooted := fSqrt (held64 offset.value)
    let product := fMul (held32 c.coefficient) (held64 rooted.value)
    let linear := raw.2 ||| scaled.kinds ||| offset.kinds
    if c.root = true then (product.value, linear ||| rooted.kinds ||| product.kinds) else (offset.value, linear)

/-- What memory is to receive for the value word `d` of this frame, and what that word does at DONE (R53, R55). -/
def valueTaken (s : State) (f : OpenFrame) (d : Word) : Word × WordEffect :=
  match f.lookup with
  | none => (d, .converts d d none 0)
  | some l =>
    let r := conversionOf (s.arith.conversions.get l.action.conversion).entry d
    let stored := if f.length = 4 ∧ l.action.store = .converted then narrow r.1 else d
    (stored, .converts d stored (some r.1) r.2)

/-- The verdict on a check word over the received words (R46). -/
def verdict (received : List Word) (d : Word) : Bool := d == ~~~(received.foldl (· + ·) 0)

/-- What memory is to receive for the check word `d` over these received words and this stored value (R56). -/
def checkStored (f : OpenFrame) (received : List Word) (value d : Word) : Word :=
  if f.length = 4 ∧ f.lookup.any (fun l => l.action.store == .converted) = true then
    let c := ~~~(f.storedHead + wordAt received 1 + value)
    if verdict received d = true then c else c + 1
  else d

/-- Word `n` of the frame is neither its value word nor its check word (R52). -/
def isPlain (f : OpenFrame) (n : Nat) : Prop := n + 1 ≠ f.length ∧ ¬(f.length = 4 ∧ n = 2)

/-- R48, R49, R59, R191: a word in a sample window that is neither a continuation nor a head, and a byte or half write there,
passes unchanged and tears its master's open frame. The second word of a pair whose first is such a word is taken
against an EMPTY record: it opens a frame or takes no role. A pair's word that alone lies in a window, its second or its
first, is taken alone, as a stray word, a head or the word its master's open frame expects. That the stored head under
CONVERTED follows R191 in the bits that no table assigns is the model's reading (log 30). -/
def Obligations.StrayWordPasses : Prop :=
  (∀ (s : State) (tag : Fin 8) (addr : Addr) (size : Size) (w : Fin 4) (d : Word), OpenTo tag s →
    aligned size addr = true → windowOf s (wordOf addr) = some w →
    let wait (holds : List WordHold) : State → State :=
      waiting ⟨tag, .write, addr, size, d, 0⟩ (.pass ⟨.write, size, addr, d, 0⟩ holds)
    (size = .word → addr.toNat % 16 ≠ 0 ∨ headKind d = 0 ∨ s.inEffect.enable = false →
      (s.asm.records.get tag = none →
        exec (.write tag addr size d) s = .next (wait [⟨addr, false, false, .nothing⟩] s))
      ∧ ∀ f, s.asm.records.get tag = some f → addr ≠ f.address + BitVec.ofNat 24 (4 * f.next) →
          exec (.write tag addr size d) s = .next (wait [⟨addr, false, false, .nothing⟩] (tornFrame tag f s)))
    ∧ (size ≠ .word →
      (s.asm.records.get tag = none → exec (.write tag addr size d) s = .next (wait [] s))
      ∧ ∀ f, s.asm.records.get tag = some f →
          exec (.write tag addr size d) s = .next (wait [] (tornFrame tag f s))))
  ∧ (∀ (s : State) (tag : Fin 8) (addr : Addr) (w : Fin 4) (d0 d1 : Word), OpenTo tag s → aligned .word addr = true →
      (windowOf s addr).isSome = true → ¬isHead s addr d0 → windowOf s (nextWord addr) = some w →
      let frame := (frameOpened s tag w (nextWord addr) d1).1
      let fits := (frameOpened s tag w (nextWord addr) d1).2
      let none_ : State → State := pairWaits tag addr d0 d1 d0 d1 .nothing .nothing
      let opens : State → State := pairWaits tag addr d0 d1 d0 frame.storedHead .nothing (.opens frame fits)
      (s.asm.records.get tag = none →
        (¬isHead s (nextWord addr) d1 → exec (.pairWrite tag addr d0 d1) s = .next (none_ s))
        ∧ (isHead s (nextWord addr) d1 → exec (.pairWrite tag addr d0 d1) s = .next (opens s)))
      ∧ ∀ f, s.asm.records.get tag = some f → addr ≠ f.address + BitVec.ofNat 24 (4 * f.next) →
        (¬isHead s (nextWord addr) d1 → exec (.pairWrite tag addr d0 d1) s = .next (none_ (tornFrame tag f s)))
        ∧ (isHead s (nextWord addr) d1 → exec (.pairWrite tag addr d0 d1) s = .next (opens (tornFrame tag f s))))
  ∧ (∀ (s : State) (tag : Fin 8) (addr : Addr) (w : Fin 4) (d0 d1 : Word), OpenTo tag s → aligned .word addr = true →
      isControl s addr = false ∨ (tag.val = s.path.controlTag.toNat ∧ isOwned s addr = false) →
      windowOf s addr = none → windowOf s (nextWord addr) = some w →
      let run := exec (.pairWrite tag addr d0 d1) s
      let alone (stored : Word) (e : WordEffect) : State → State := waiting ⟨tag, .pairWrite, addr, .word, d0, d1⟩
        (.pass ⟨.pairWrite, .word, addr, d0, stored⟩ [⟨nextWord addr, false, false, e⟩])
      let frame := (frameOpened s tag w (nextWord addr) d1).1
      let fits := (frameOpened s tag w (nextWord addr) d1).2
      (s.asm.records.get tag = none →
        (¬isHead s (nextWord addr) d1 → run = .next (alone d1 .nothing s))
        ∧ (isHead s (nextWord addr) d1 → run = .next (alone frame.storedHead (.opens frame fits) s)))
      ∧ (∀ f, s.asm.records.get tag = some f → nextWord addr ≠ f.address + BitVec.ofNat 24 (4 * f.next) →
        (¬isHead s (nextWord addr) d1 → run = .next (alone d1 .nothing (tornFrame tag f s)))
        ∧ (isHead s (nextWord addr) d1 →
          run = .next (alone frame.storedHead (.opens frame fits) (tornFrame tag f s))))
      ∧ ∀ f, s.asm.records.get tag = some f → nextWord addr = f.address + BitVec.ofNat 24 (4 * f.next) →
        (isPlain f f.next → run = .next (alone d1 (.advances d1) s))
        ∧ (f.length = 4 → f.next = 2 → run = .next (alone (valueTaken s f d1).1 (valueTaken s f d1).2 s))
        ∧ (f.next + 1 = f.length → run =
          .next (alone (checkStored f f.received (f.storedValue.getD (wordAt f.received 2)) d1)
            (.closes (verdict f.received d1)) s)))
  ∧ (∀ (s : State) (tag : Fin 8) (addr : Addr) (w : Fin 4) (d0 d1 : Word), OpenTo tag s → aligned .word addr = true →
      isControl s (nextWord addr) = false ∨ (tag.val = s.path.controlTag.toNat ∧ isOwned s (nextWord addr) = false) →
      windowOf s addr = some w → windowOf s (nextWord addr) = none →
      let run := exec (.pairWrite tag addr d0 d1) s
      let alone (stored : Word) (e : WordEffect) : State → State := waiting ⟨tag, .pairWrite, addr, .word, d0, d1⟩
        (.pass ⟨.pairWrite, .word, addr, stored, d1⟩ [⟨addr, false, false, e⟩])
      let frame := (frameOpened s tag w addr d0).1
      let fits := (frameOpened s tag w addr d0).2
      (s.asm.records.get tag = none →
        (¬isHead s addr d0 → run = .next (alone d0 .nothing s))
        ∧ (isHead s addr d0 → run = .next (alone frame.storedHead (.opens frame fits) s)))
      ∧ (∀ f, s.asm.records.get tag = some f → addr ≠ f.address + BitVec.ofNat 24 (4 * f.next) →
        (¬isHead s addr d0 → run = .next (alone d0 .nothing (tornFrame tag f s)))
        ∧ (isHead s addr d0 → run = .next (alone frame.storedHead (.opens frame fits) (tornFrame tag f s))))
      ∧ ∀ f, s.asm.records.get tag = some f → addr = f.address + BitVec.ofNat 24 (4 * f.next) →
        (isPlain f f.next → run = .next (alone d0 (.advances d0) s))
        ∧ (f.length = 4 → f.next = 2 → run = .next (alone (valueTaken s f d0).1 (valueTaken s f d0).2 s))
        ∧ (f.next + 1 = f.length → run =
          .next (alone (checkStored f f.received (f.storedValue.getD (wordAt f.received 2)) d0)
            (.closes (verdict f.received d0)) s)))

/-- R48, R52, R53, R55, R56, R59, R191: the expected word of an open frame waits for the port as its plain word, its value
word, converted through the carried entry, or its check word, with the verdict. So do both words of a pair, the second
taken as the first word's DONE would leave the frame: plain and plain, plain and value, plain and check, value and
check; and a head or a word with no role after a check. That the stored head of such a head under CONVERTED follows R191 in
the bits that no table assigns is the model's reading (log 30). -/
def Obligations.ContinuationHeld : Prop :=
  ∀ (s : State) (tag : Fin 8) (addr : Addr) (d d1 : Word) (f : OpenFrame), OpenTo tag s →
    aligned .word addr = true → (windowOf s addr).isSome = true → s.asm.records.get tag = some f →
    addr = f.address + BitVec.ofNat 24 (4 * f.next) →
    let wait (stored : Word) (e : WordEffect) : State :=
      waiting ⟨tag, .write, addr, .word, d, 0⟩ (.pass ⟨.write, .word, addr, stored, 0⟩ [⟨addr, false, false, e⟩]) s
    let value := valueTaken s f d
    let check := checkStored f f.received (f.storedValue.getD (wordAt f.received 2)) d
    let closes : WordEffect := .closes (verdict f.received d)
    (isPlain f f.next → exec (.write tag addr .word d) s = .next (wait d (.advances d)))
    ∧ (f.length = 4 → f.next = 2 → exec (.write tag addr .word d) s = .next (wait value.1 value.2))
    ∧ (f.next + 1 = f.length → exec (.write tag addr .word d) s = .next (wait check closes))
    ∧ ∀ w, windowOf s (nextWord addr) = some w →
        let run := exec (.pairWrite tag addr d d1) s
        let pair (stored0 stored1 : Word) (e0 e1 : WordEffect) : State :=
          pairWaits tag addr d d1 stored0 stored1 e0 e1 s
        let frame := (frameOpened s tag w (nextWord addr) d1).1
        let fits := (frameOpened s tag w (nextWord addr) d1).2
        (isPlain f f.next → isPlain f (f.next + 1) → run = .next (pair d d1 (.advances d) (.advances d1)))
        ∧ (f.length = 4 → f.next = 1 →
          run = .next (pair d (valueTaken s f d1).1 (.advances d) (valueTaken s f d1).2))
        ∧ (isPlain f f.next → f.next + 2 = f.length →
          run = .next (pair d d1 (.advances d) (.closes (verdict (f.received ++ [d]) d1))))
        ∧ (f.length = 4 → f.next = 2 →
          run = .next (pair value.1 (checkStored f (f.received ++ [d]) value.1 d1) value.2
            (.closes (verdict (f.received ++ [d]) d1))))
        ∧ (f.next + 1 = f.length → isHead s (nextWord addr) d1 →
          run = .next (pair check frame.storedHead closes (.opens frame fits)))
        ∧ (f.next + 1 = f.length → ¬isHead s (nextWord addr) d1 → run = .next (pair check d1 closes .nothing))

/-! ### The port (Chapter 1) -/

/-- Offset of an entry's first word in the control area (Table 2-1). -/
def entryOffset (pos : EntryPos) : Nat :=
  match pos with
  | .globalSettings => 0
  | .band => 0x40
  | .checker i => 0x80 + 16 * i.val
  | .conversion i => 0x100 + 16 * i.val
  | .point p => 0x400 + 64 * p.val
  | .segment g => 0x800 + 64 * g.val
  | .slot r => 0xA00 + 16 * r.val
  | .classification e => 0xC00 + 32 * e.val

/-- The next read of a fetch of the words from offset `off` (R12, R20): a READ of a last odd word or of a word that is read
again alone, otherwise a PAIR READ. -/
def readsAt (s : State) (f : Fetch) (off : Nat) : Access :=
  ⟨if f.single = true ∨ f.got.length + 1 = f.total then .read else .pairRead, .word,
    controlAddr s (off + 4 * f.got.length), 0, 0⟩

/-- R19, R10 to R13, R16: a free port goes to the current transaction when no own item stands against it, or while a lock is
held or yield is off; a read that touches a record IN UPDATE or TORN is answered RETRY with no access. No write reaches
memory at an owned address (R10). For a write whose word a ring-size change has made owned while it waited, the spec
gives that outcome and not the answer: that it is answered FAULT, OWNED WRITE, at the grant is the model's reading
(log 31); which report of its capture takes a last free place of the own-access queue is its choice (log 36). The access
granted is the transaction's own, the fetch's next words, or the held or locked write (R12, R13, R16). -/
def Obligations.PortGrantedToTransaction : Prop :=
  (∀ (s : State) (c : Current), s.path.port = none → s.path.current = some c →
    s.pub.queue = [] ∨ s.path.lock.isSome = true ∨ s.path.yield = false →
    let isRead : Bool := c.txn.kind == .read || c.txn.kind == .pairRead
    let touches : Bool := (wordsOf c.txn).any (unreadable s)
    let owned : Bool := (wordsOf c.txn).any (isOwned s)
    (isRead = true → touches = true → exec .portGrant s = .next (answered c.txn.tag .retry [] s))
    ∧ (∀ access holds, c.phase = .pass access holds → c.txn.kind = .write ∨ c.txn.kind = .pairWrite → owned = true →
        Faults .portGrant s c.txn .ownedWrite)
    ∧ (isRead = false ∨ touches = false → passesWrite c = false ∨ owned = false →
        ∀ issuer access, phaseAccess s c = (issuer, access) →
        exec .portGrant s = .next { s with path := { s.path with port := some ⟨issuer, access, false⟩ } }))
  ∧ (∀ (s : State) (t : Transaction) (access : Access) (holds : List WordHold) (f : Fetch) (words : List Word) (n : Nat)
      (purpose : Purpose),
      let reads (off : Nat) : Issuer × Access := (.fetch, readsAt s f off)
      phaseAccess s ⟨t, .pass access holds⟩ = (.passThrough, access)
      ∧ (∀ pos, phaseAccess s ⟨t, .fetch (.commit pos) f words⟩ = reads (entryOffset pos))
      ∧ (∀ slot : Fin 8, phaseAccess s ⟨t, .fetch (.command slot) f words⟩ = reads (0x1400 + 32 * slot.val))
      ∧ (t.kind = .write →
        phaseAccess s ⟨t, .held purpose words n⟩ = (.heldWrite, ⟨.write, t.size, t.addr, t.data0, 0⟩))
      ∧ (t.kind = .pairWrite →
        phaseAccess s ⟨t, .held purpose words n⟩ = (.heldWrite, ⟨.pairWrite, .word, t.addr, t.data0, t.data1⟩))
      ∧ (t.kind = .lockWrite →
        phaseAccess s ⟨t, .locked n⟩ = (.lockedWrite, ⟨.write, .word, t.addr, t.data0, 0⟩)))

/-- R19, R162, R163, R168: a free port goes to the oldest own item when it stands alone and no lock is held, or when
yield is on and no lock is held; its first grant begins it, and that of a PUBLISH item raises the record's sequence,
makes it IN UPDATE and writes the new sequence. While a lock is held and no transaction is current, nothing is
granted. A ring entry is written as words 1-2, 3-4, 5-6, then word 7, then the head; a STATUS item has one access; a PUBLISH
item writes its words in pairs from the first, its sequence in the first and the last, 4, 8 or 32 accesses in all; a FETCH
item reads its entry from the first word to the commit word. -/
def Obligations.PortGrantedToOwnItem : Prop :=
  (∀ (s : State) (it : OwnItem) (rest : List OwnItem), s.path.port = none → s.pub.queue = it :: rest →
      (s.path.current = none → s.path.lock.isSome = true → exec .portGrant s = .next s)
      ∧ (s.path.lock = none → s.path.current = none ∨ s.path.yield = true →
        (∀ pr, s.pub.begun = some pr → exec .portGrant s =
          .next { s with path := { s.path with port := some ⟨.own, ownAccess s it pr, false⟩ } })
        ∧ (s.pub.begun = none → ∀ r content, it = .publish r content →
            let x := s.pub.records.get r
            let y : PubRecord := ⟨.inUpdate, if x.mark = .queued then .none else x.mark, x.sequence + 1⟩
            exec .portGrant s = .next { s with
              pub := { s.pub with begun := some ⟨0, 0, [], 0, false⟩, records := upd s.pub.records r y }
              path := { s.path with port := some ⟨.own,
                ⟨.pairWrite, .word, controlAddr s (recordOffset r), wordAt content 0 ||| put (x.sequence + 1).toNat 0,
                  publishWord (x.sequence + 1) content 1⟩, false⟩ } })
        ∧ (s.pub.begun = none → (∀ r content, it ≠ .publish r content) →
            exec .portGrant s = .next { s with
              pub := { s.pub with begun := some it.start }
              path := { s.path with port := some ⟨.own, ownAccess s it it.start, false⟩ } })))
  ∧ (∀ (s : State) (position : Nat) (words : List Word) (f : Fetch) (slot : Fin 8) (word : Word),
      let at_ (off : Nat) : Addr := controlAddr s (0x4000 + 32 * position + off)
      let access (k : Nat) : Access := ownAccess s (.digest position words) ⟨k, f⟩
      access 0 = ⟨.pairWrite, .word, at_ 4, wordAt words 1, wordAt words 2⟩
      ∧ access 1 = ⟨.pairWrite, .word, at_ 12, wordAt words 3, wordAt words 4⟩
      ∧ access 2 = ⟨.pairWrite, .word, at_ 20, wordAt words 5, wordAt words 6⟩
      ∧ access 3 = ⟨.write, .word, at_ 28, wordAt words 7, 0⟩
      ∧ access 4 = ⟨.write, .word, at_ 0, wordAt words 0, 0⟩
      ∧ ownAccess s (.status slot word) ⟨0, f⟩ = ⟨.write, .word, controlAddr s (0x1418 + 32 * slot.val), word, 0⟩
      ∧ (OwnItem.digest position words).count = 5 ∧ (OwnItem.status slot word).count = 1)
  ∧ (∀ (s : State) (position : BitVec 5) (words : List Word) (f : Fetch),
      let at_ (off : Nat) : Addr := controlAddr s (0x2000 + 32 * position.toNat + off)
      let access (k : Nat) : Access := ownAccess s (.outbound position words) ⟨k, f⟩
      access 0 = ⟨.pairWrite, .word, at_ 4, wordAt words 1, wordAt words 2⟩
      ∧ access 1 = ⟨.pairWrite, .word, at_ 12, wordAt words 3, wordAt words 4⟩
      ∧ access 2 = ⟨.pairWrite, .word, at_ 20, wordAt words 5, wordAt words 6⟩
      ∧ access 3 = ⟨.write, .word, at_ 28, wordAt words 7, 0⟩
      ∧ access 4 = ⟨.write, .word, at_ 0, wordAt words 0, 0⟩ ∧ (OwnItem.outbound position words).count = 5)
  ∧ (∀ (s : State) (r : Fin 28) (content : List Word) (k : Nat) (f : Fetch), k < content.length / 2 →
      let sequence : Word := ((s.pub.records.get r).sequence).setWidth 32
      let word (i : Nat) : Word :=
        if i = 0 ∨ i + 1 = content.length then wordAt content i ||| sequence else wordAt content i
      let base : Nat := if r.val < 16 then 0x1800 + 64 * r.val else if r.val < 24 then 0x1C00 + 64 * (r.val - 16)
        else [0x1E00, 0x1F00, 0x1F40, 0x1F60].getD (r.val - 24) 0
      ownAccess s (.publish r content) ⟨k, f⟩ =
          ⟨.pairWrite, .word, controlAddr s (base + 8 * k), word (2 * k), word (2 * k + 1)⟩
        ∧ (OwnItem.publish r (recordContent s r)).count = (if r.val < 24 ∨ r.val = 25 then 8 else if r.val = 24 then 32 else 4))
  ∧ (∀ (s : State) (pos : EntryPos) (k : Nat) (f : Fetch),
      ownAccess s (.fetch pos) ⟨k, f⟩ = readsAt s f (entryOffset pos)
      ∧ (OwnItem.fetch pos).start = ⟨0, pos.words, [], 0, false⟩
      ∧ pos.words = match pos with
        | .globalSettings | .point _ | .segment _ => 16
        | .band | .classification _ => 8
        | .checker _ | .conversion _ | .slot _ => 4)

/-! ### Memory's responses -/

/-- A response to a pass-through access stands on the port for this transaction. -/
def PassWaits (s : State) (t : Transaction) (access : Access) (holds : List WordHold) : Prop :=
  s.path.port = some ⟨.passThrough, access, false⟩ ∧ s.path.current = some ⟨t, .pass access holds⟩

def portFree (s : State) : State := { s with path := { s.path with port := none } }

/-- R6 to R8, R14: the completion of a READ, PAIR READ and LOCK READ from memory's answers, a DONE read being reported
to the Publisher and a DONE LOCK READ taking the lock; and that of a write that memory does not do, or that holds no
sample word. -/
def Obligations.PassThroughCompletes : Prop :=
  (∀ (s : State) (t : Transaction) (access : Access) (holds : List WordHold) (first second : Response),
      PassWaits s t access holds →
      (t.kind = .read ∨ t.kind = .pairRead ∨ t.kind = .lockRead →
        (first.answer = .retry ∨ first.answer = .retryFault →
          exec (.passThroughResponse first second) s = .next (answered t.tag .retry [] (portFree s)))
        ∧ (first.answer = .fault →
          exec (.passThroughResponse first second) s = .next (answered t.tag .fault [] (portFree s))))
      ∧ (first.answer = .done →
        (t.kind = .read → exec (.passThroughResponse first second) s =
          .next (answered t.tag .done [first.data] (reportRead t.addr (portFree s))))
        ∧ (t.kind = .pairRead → second.answer = .done → exec (.passThroughResponse first second) s =
          .next (answered t.tag .done [first.data, second.data] (reportRead t.addr (portFree s))))
        ∧ (t.kind = .pairRead → second.answer ≠ .done → exec (.passThroughResponse first second) s =
          .next (answered t.tag .doneFirst [first.data] (reportRead t.addr (portFree s))))
        ∧ (t.kind = .lockRead → exec (.passThroughResponse first second) s =
          .next (answered t.tag .done [first.data]
            { portFree s with path := { (portFree s).path with lock := some (t.tag, t.addr) } }))))
  ∧ (∀ (s : State) (t : Transaction) (access : Access) (holds : List WordHold) (first second : Response),
      PassWaits s t access holds → t.kind = .write ∨ t.kind = .pairWrite →
      (first.answer = .retry ∨ first.answer = .retryFault →
        exec (.passThroughResponse first second) s = .next (answered t.tag .retry [] (portFree s)))
      ∧ (first.answer = .fault →
        exec (.passThroughResponse first second) s = .next (answered t.tag .fault [] (portFree s)))
      ∧ (first.answer = .done → holds = [] →
        exec (.passThroughResponse first second) s = .next (answered t.tag .done [] (portFree s))))

/-- R173: a reported read of the release word of a WRITTEN entry frees it and abandons every older entry; that of a
RESERVED or FREE entry, or any other reported read, changes nothing. -/
def Obligations.DigestReleasedByRead : Prop :=
  ∀ (s : State) (a : Addr),
    s.pub.digest.oldest < s.inEffect.ringSize → s.pub.digest.occupied.length ≤ s.inEffect.ringSize →
    s.inEffect.ringSize ≤ 256 →
    let size := s.inEffect.ringSize
    let releaseWordAt (k : Nat) : Addr := controlAddr s (0x4000 + 32 * k + 28)
    (∀ i e, s.pub.digest.occupied[i]? = some e → wordOf a = releaseWordAt ((s.pub.digest.oldest + i) % size) →
      reportRead a s = if e.written then
          { s with pub := { s.pub with
              digest := { s.pub.digest with
                oldest := (s.pub.digest.oldest + i + 1) % size
                occupied := s.pub.digest.occupied.drop (i + 1) }
              digestAbandoned := s.pub.digestAbandoned + BitVec.ofNat 32 i } }
        else s)
    ∧ (∀ k, k < size → (∀ i, i < s.pub.digest.occupied.length → (s.pub.digest.oldest + i) % size ≠ k) →
        wordOf a = releaseWordAt k → reportRead a s = s)
    ∧ ((∀ k, k < size → wordOf a ≠ releaseWordAt k) → reportRead a s = s)

/-- What the DONE of one held word does (R51, R52, R54, R57): a word with no role nothing; a head opens its frame or is torn;
a plain or value word moves the open frame on; a check word closes it, counted, and joined to the work queue when its
verdict is good and fewer than 15 items stand there. A word that moves or closes a frame does nothing where none is open. -/
def wordDone (tag : Fin 8) (e : WordEffect) (s : State) : State :=
  let setRecordTo (r : OpenFrame) : State := { s with asm := { s.asm with records := upd s.asm.records tag (some r) } }
  match e, s.asm.records.get tag with
  | .nothing, _ => s
  | .opens f true, _ => setRecordTo f
  | .opens f false, _ => tornFrame tag f s
  | .advances w, some f => setRecordTo { f with received := f.received ++ [w], next := f.next + 1 }
  | .converts w stored value kinds, some f => setRecordTo { f with
      received := f.received ++ [w], storedValue := some stored, converted := value, carried := kinds, next := 3 }
  | .closes good, some f =>
    let closed : AssemblerState := { s.asm with records := upd s.asm.records tag none, closed := s.asm.closed + 1 }
    let target := targetOf (f.kind == kindSummary) f.lookup
    if good = false then mark target { s with asm := { closed with checkFailed := s.asm.checkFailed + 1 } }
    else if 15 ≤ s.engine.workQueue.length then
      mark (targetOf (headKind (wordAt f.received 0) == kindSummary) f.lookup)
        { s with asm := { closed with overrun := s.asm.overrun + 1 } }
    else { s with
      asm := closed
      engine := { s.engine with workQueue :=
        s.engine.workQueue ++ [.frame ⟨tag, f.window, f.received, f.converted, f.lookup, f.carried⟩] } }
  | _, none => s

/-- R36, R51, R52, R54, R57 to R59, R109: DONE opens a frame that fits and tears one that does not; it advances an open
frame by its plain word and by its value word; a pair of a head and word 1 opens the frame at word 2. DONE on a check word
closes the frame: counted closed, and counted CHECK FAILED, counted OVERRUN, or joined to the work queue. The words of a
pair take effect in address order: value and check close the frame with its converted value, check and head close one frame
and open the next, and a tear that the second word caused is counted then (no arrival makes such a hold). What each word
does, one with no role too, alone or behind the other word of its pair, is that of `wordDone`. A word that a window change
voided has no effect (R36). Two clauses are the model's choice, where the spec leaves the case open: a head behind a voided
word opens its frame, or is torn, in place of any record left open (log 32); and a head looked up while processing was on
opens its frame at DONE whatever processing enable is by then (log 37). -/
def Obligations.HeldWordsSettle : Prop :=
  (∀ (s : State) (t : Transaction) (access : Access) (a b : Addr) (first second : Response) (f : OpenFrame)
      (w stored : Word) (value : Option F64) (kinds : Kinds),
      t.kind = .write ∨ t.kind = .pairWrite → first.answer = .done →
      let run := exec (.passThroughResponse first second) s
      let setRecordTo (r : OpenFrame) : State :=
        { portFree s with asm := { s.asm with records := upd s.asm.records t.tag (some r) } }
      (PassWaits s t access [⟨a, false, false, .opens f true⟩] →
        run = .next (answered t.tag .done [] (setRecordTo f)))
      ∧ (PassWaits s t access [⟨a, false, false, .opens f false⟩] →
        run = .next (answered t.tag .done [] (tornFrame t.tag f (portFree s))))
      ∧ (PassWaits s t access [⟨a, false, false, .advances w⟩] → s.asm.records.get t.tag = some f →
        run = .next (answered t.tag .done []
          (setRecordTo { f with received := f.received ++ [w], next := f.next + 1 })))
      ∧ (PassWaits s t access [⟨a, false, false, .converts w stored value kinds⟩] → s.asm.records.get t.tag = some f →
        run = .next (answered t.tag .done []
          (setRecordTo { f with
            received := f.received ++ [w], storedValue := some stored, converted := value, carried := kinds
            next := 3 })))
      ∧ (PassWaits s t access [⟨a, false, false, .opens f true⟩, ⟨b, false, false, .advances w⟩] →
        run = .next (answered t.tag .done []
          (setRecordTo { f with received := f.received ++ [w], next := f.next + 1 }))))
  ∧ (∀ (s : State) (t : Transaction) (access : Access) (a : Addr) (good : Bool) (first second : Response) (f : OpenFrame),
      t.kind = .write ∨ t.kind = .pairWrite → first.answer = .done →
      PassWaits s t access [⟨a, false, false, .closes good⟩] → s.asm.records.get t.tag = some f →
      let run := exec (.passThroughResponse first second) s
      let closed : AssemblerState :=
        { s.asm with records := upd s.asm.records t.tag none, closed := s.asm.closed + 1 }
      let item : FrameItem := ⟨t.tag, f.window, f.received, f.converted, f.lookup, f.carried⟩
      (good = false → run = .next (answered t.tag .done []
        (mark (targetOf (f.kind == kindSummary) f.lookup)
          { portFree s with asm := { closed with checkFailed := s.asm.checkFailed + 1 } })))
      ∧ (good = true → 15 ≤ s.engine.workQueue.length → run = .next (answered t.tag .done []
        (mark (targetOf item.isSummary f.lookup)
          { portFree s with asm := { closed with overrun := s.asm.overrun + 1 } })))
      ∧ (good = true → s.engine.workQueue.length < 15 → run = .next (answered t.tag .done []
        { portFree s with
          asm := closed
          engine := { s.engine with workQueue := s.engine.workQueue ++ [.frame item] } })))
  ∧ (∀ (s : State) (t : Transaction) (access : Access) (a b : Addr) (first second : Response) (f g : OpenFrame)
      (w stored : Word) (value : Option F64) (kinds : Kinds) (tears : Bool) (e : WordEffect),
      t.kind = .write ∨ t.kind = .pairWrite → first.answer = .done →
      let run := exec (.passThroughResponse first second) s
      let queue (item : FrameItem) : EngineState := { s.engine with workQueue := s.engine.workQueue ++ [.frame item] }
      (PassWaits s t access [⟨a, false, false, .converts w stored value kinds⟩, ⟨b, false, false, .closes true⟩] →
        s.asm.records.get t.tag = some f → s.engine.workQueue.length < 15 →
        run = .next (answered t.tag .done [] { portFree s with
          asm := { s.asm with records := upd s.asm.records t.tag none, closed := s.asm.closed + 1 }
          engine := queue ⟨t.tag, f.window, f.received ++ [w], value, f.lookup, kinds⟩ }))
      ∧ (PassWaits s t access [⟨a, false, false, .closes true⟩, ⟨b, false, false, .opens g true⟩] →
        s.asm.records.get t.tag = some f → s.engine.workQueue.length < 15 →
        run = .next (answered t.tag .done [] { portFree s with
          asm := { s.asm with records := upd s.asm.records t.tag (some g), closed := s.asm.closed + 1 }
          engine := queue ⟨t.tag, f.window, f.received, f.converted, f.lookup, f.carried⟩ }))
      ∧ (PassWaits s t access [⟨a, false, false, .nothing⟩, ⟨b, true, false, .nothing⟩] →
        s.asm.records.get t.tag = some f →
        run = .next (answered t.tag .done [] (tornFrame t.tag f (portFree s))))
      ∧ (PassWaits s t access [⟨a, tears, true, e⟩] → run = .next (answered t.tag .done [] (portFree s)))
      ∧ (PassWaits s t access [⟨a, tears, true, e⟩, ⟨b, false, false, .opens g true⟩] →
        run = .next (answered t.tag .done []
          { portFree s with asm := { s.asm with records := upd s.asm.records t.tag (some g) } }))
      ∧ (PassWaits s t access [⟨a, tears, true, e⟩, ⟨b, false, false, .opens g false⟩] →
        run = .next (answered t.tag .done [] (tornFrame t.tag g (portFree s)))))
  ∧ (∀ (s : State) (t : Transaction) (access : Access) (a b : Addr) (first second : Response) (e e' : WordEffect),
      t.kind = .write ∨ t.kind = .pairWrite → first.answer = .done →
      let run := exec (.passThroughResponse first second) s
      (PassWaits s t access [⟨a, false, false, e⟩] →
        run = .next (answered t.tag .done [] (wordDone t.tag e (portFree s))))
      ∧ (PassWaits s t access [⟨a, false, false, e⟩, ⟨b, false, false, e'⟩] →
        run = .next (answered t.tag .done [] (wordDone t.tag e' (wordDone t.tag e (portFree s))))))

/-- A response to a fetch access stands on the port for this transaction. -/
def FetchWaits (s : State) (t : Transaction) (access : Access) (purpose : Purpose) (f : Fetch) (carried : List Word) :
    Prop :=
  s.path.port = some ⟨.fetch, access, false⟩ ∧ s.path.current = some ⟨t, .fetch purpose f carried⟩

def atPhase (t : Transaction) (phase : Phase) (s : State) : State :=
  { s with path := { s.path with current := some ⟨t, phase⟩ } }

/-- R12: a fetch goes on, re-reads the second word of a pair alone, is retried up to 8 attempts, or fails. That the first
word of a pair decides where one word is answered RETRY and the other FAULT is the model's choice (log 38), and so is which
report of the capture takes a last free place of the own-access queue (log 36). -/
def Obligations.FetchResponseTaken : Prop :=
  ∀ (s : State) (t : Transaction) (access : Access) (purpose : Purpose) (f : Fetch) (carried : List Word)
    (first second : Response), FetchWaits s t access purpose f carried →
    let run := exec (.fetchAccessResponse first second) s
    let goesOn (g : Fetch) : Prop := run = .next (atPhase t (.fetch purpose g carried) (portFree s))
    let one : Bool := f.single || f.got.length + 1 == f.total
    (one = true → first.answer = .done → f.got.length + 1 < f.total →
      goesOn { f with got := f.got ++ [first.data], attempts := 0, single := false })
    ∧ (one = false → first.answer = .done → second.answer = .done → f.got.length + 2 < f.total →
      goesOn { f with got := f.got ++ [first.data, second.data], attempts := 0, single := false })
    ∧ (one = false → first.answer = .done → second.answer ≠ .done → f.got.length + 1 < f.total →
      goesOn { f with got := f.got ++ [first.data], attempts := 1, single := true })
    ∧ (first.answer = .retry ∨ first.answer = .retryFault → f.attempts + 1 < 8 → f.got.length < f.total →
      goesOn { f with attempts := f.attempts + 1 })
    ∧ (first.answer = .fault ∨ ((first.answer = .retry ∨ first.answer = .retryFault) ∧ 8 ≤ f.attempts + 1) →
      ∃ s', run = .next s' ∧ FaultedWith { portFree s with cmd := { s.cmd with granted := none } } s' t.tag
        (s.path.controlTag.setWidth 4) t.kind.faultKind .word t.addr .ownAccessFailed)

/-- A sample's number or set agrees with the entry's value in every digit or member that the mask selects (R65). -/
def agrees {n : Nat} (value mask x : BitVec n) : Prop :=
  ∀ i, i < n → mask.getLsbD i = true → x.getLsbD i = value.getLsbD i

/-- A loaded classification entry targets point `p` (R86): a FIRST entry of target `p` whose key admits a kind other than
8, or a SECOND entry whose point field matches `p`. -/
def loadedTargets (c : ClassEntry) (p : Fin 16) : Prop :=
  match c with
  | .first key action => action.target = p ∧ ∃ kind : BitVec 4, kind ≠ 8 ∧ agrees key.kindValue key.kindMask kind
  | .second key _ => agrees key.pointValue key.pointMask (BitVec.ofNat 4 p.val)

/-- The words of a classification entry target point `p` (R86, Tables 11-1, 11-7). -/
def wordsTarget (words : List Word) (p : Fin 16) : Prop :=
  let code := ((wordAt words 7).extractLsb' 8 2).toNat
  let value : BitVec 4 := (wordAt words 0).extractLsb' 16 4
  let mask : BitVec 4 := (wordAt words 1).extractLsb' 16 4
  (code = 1 ∧ ((wordAt words 2).extractLsb' 4 4).toNat = p.val ∧ ∃ kind : BitVec 4, kind ≠ 8 ∧ agrees value mask kind)
    ∨ (code = 2 ∧ agrees ((wordAt words 0).extractLsb' 0 4) ((wordAt words 0).extractLsb' 16 4) (BitVec.ofNat 4 p.val))

/-- R12, R30, R31, R39, R86, R159, R182: when the last word is read, the arguments of a command go with its held write; an
entry is accepted, its held write then waiting, or refused with its reason. The checks are made in the order of R30: a run
protects the point entries of its two points and every classification entry whose loaded copy or new content targets
either; a ring size changes when the new one, 16 for an unloading, is not the one in effect. That the new content of a
classification entry is looked at whatever its valid flag and its other fields is the model's reading (log 23); which
report of a capture takes a last free place of the own-access queue is its choice (log 36). -/
def Obligations.FetchedEntryDecided : Prop :=
  (∀ (s : State) (t : Transaction) (access : Access) (purpose : Purpose) (f : Fetch) (carried last : List Word)
      (first second : Response), FetchWaits s t access purpose f carried → first.answer = .done →
      (f.got.length + 1 = f.total ∧ last = [first.data])
        ∨ (f.got.length + 2 = f.total ∧ f.single = false ∧ second.answer = .done ∧ last = [first.data, second.data]) →
      let run := exec (.fetchAccessResponse first second) s
      let words := f.got ++ last ++ carried
      (∀ slot, purpose = .command slot → run = .next (atPhase t (.held purpose words 0) (portFree s)))
      ∧ (∀ pos, purpose = .commit pos →
        (∀ reason, decideEntry (portFree s) pos words = .refused reason →
          ∃ s', run = .next s' ∧ FaultedWith (portFree s) s' t.tag (s.path.controlTag.setWidth 4) t.kind.faultKind .word
            t.addr reason)
        ∧ (decideEntry (portFree s) pos words = .accepted → changesRingSize s pos words = false →
          run = .next (atPhase t (.held purpose words 0) (portFree s)))
        ∧ (decideEntry (portFree s) pos words = .accepted → changesRingSize s pos words = true →
          run = .next (atPhase t (.held purpose words 0)
            { portFree s with pub := { s.pub with digest := { s.pub.digest with sizePending := true } } }))))
  ∧ (∀ (s : State) (pos : EntryPos) (words : List Word),
      let guarded := provingInProgress s = true
        ∧ protectedUnder s s.proving.test s.proving.reference pos words = true
      let valid := (wordAt words (pos.words - 1)).getLsbD 31 = true
      let resized := changesRingSize s pos words = true ∧ s.pub.digest.occupied ≠ []
      (guarded → decideEntry s pos words = .refused .provingProtected)
      ∧ (¬guarded → valid → fieldsOk pos words = false → decideEntry s pos words = .refused .invalidEntry)
      ∧ (¬guarded → (valid → fieldsOk pos words = true) → resized → decideEntry s pos words = .refused .ringBusy)
      ∧ (¬guarded → (valid → fieldsOk pos words = true) → ¬resized → decideEntry s pos words = .accepted))
  ∧ (∀ (s : State) (p q : Fin 16) (words : List Word),
      (∀ x, protectedUnder s p q (.point x) words = true ↔ x = p ∨ x = q)
      ∧ (∀ e, protectedUnder s p q (.classification e) words = true ↔
          (∃ c, (s.cls.entries.get e).entry = some c ∧ (loadedTargets c p ∨ loadedTargets c q))
            ∨ wordsTarget words p ∨ wordsTarget words q)
      ∧ ∀ pos, (∀ x, pos ≠ .point x) → (∀ e, pos ≠ .classification e) → protectedUnder s p q pos words = false)
  ∧ (∀ (s : State) (pos : EntryPos) (words : List Word),
      let valid := (wordAt words 15).getLsbD 31 = true
      (pos ≠ .globalSettings → changesRingSize s pos words = false)
      ∧ (¬valid → (changesRingSize s .globalSettings words = true ↔ s.inEffect.ringSize ≠ 16))
      ∧ ∀ g, valid → readGlobal words = some g →
          (changesRingSize s .globalSettings words = true ↔ s.inEffect.ringSize ≠ g.ringSize))

/-- The number in `len` bits of a word of an entry from bit `lo` (R191). -/
def fieldAt (ws : List Word) (i lo len : Nat) : Nat := ((wordAt ws i).extractLsb' lo len).toNat

/-- A reader answers these fields exactly when they are in range. -/
def ReadsAs {α : Type} (answer : Option α) (inRange : Prop) (fields : α) : Prop :=
  (inRange → answer = some fields) ∧ (¬inRange → answer = none)

/-- A positive finite binary32 value. -/
def isPositive (x : F32) : Prop := f32IsFinite x = true ∧ fLt 0 (widen x) = true

/-- A counter field names a hit counter or none (Table 11-1). -/
def isCounter (code : Nat) : Prop := code < 32 ∨ code = 63

def counterAt (code : Nat) : Option (Fin 32) := if code = 63 then none else some (Fin.ofNat 32 code)

/-- Table 2-3, R87, R192, Tables 11-4 to 11-7: the fields of each kind of entry, word by word, and the checks they pass at
validation; an entry outside them has no fields. Comparisons are those of binary64, false of a NaN; that a clear level of -0
is no negative one and is accepted is the model's reading (log 12). -/
def Obligations.EntryFieldsRead : Prop :=
  ∀ ws : List Word,
    let w (i : Nat) : Word := wordAt ws i
    let at_ (i lo len : Nat) : Nat := fieldAt ws i lo len
    let flag (i n : Nat) : Bool := (wordAt ws i).getLsbD n
    (let sizes : List Nat := [16, 32, 64, 128, 256]
     let window (k : Nat) : SampleWindow := ⟨flag 2 (16 + k), w (3 + 2 * k), w (4 + 2 * k)⟩
     let windowFits (k : Nat) : Prop := flag 2 (16 + k) = true →
       (w (3 + 2 * k)).toNat % 16 = 0 ∧ (w (4 + 2 * k)).toNat % 16 = 0 ∧ 0 < (w (4 + 2 * k)).toNat
         ∧ (w (3 + 2 * k)).toNat + (w (4 + 2 * k)).toNat ≤ 0x1000000
     ReadsAs (readGlobal ws)
       (at_ 1 16 3 < 5 ∧ 100 ≤ at_ 1 0 16 ∧ at_ 1 0 16 ≤ 60000 ∧ 1 ≤ at_ 1 20 9
         ∧ at_ 1 20 9 ≤ sizes.getD (at_ 1 16 3) 0 ∧ 1 ≤ at_ 0 16 3 ∧ ∀ k, k < 4 → windowFits k)
       { enable := flag 0 0
         stationId := (w 0).extractLsb' 8 5
         hopLimit := (w 0).extractLsb' 16 3
         vectorBase := (w 0).extractLsb' 24 8
         period := (w 1).extractLsb' 0 16
         ringSize := sizes.getD (at_ 1 16 3) 0
         threshold := at_ 1 20 9
         causeEnable := (w 2).extractLsb' 0 6
         potency := (w 2).extractLsb' 8 5
         windows := #v[window 0, window 1, window 2, window 3] })
    ∧ ReadsAs (readBand ws)
        ((∀ k, k < 7 → f32IsFinite (w k) = true) ∧ ∀ k, k < 6 → fLt (widen (w k)) (widen (w (k + 1))) = true)
        ⟨#v[w 0, w 1, w 2, w 3, w 4, w 5, w 6]⟩
    ∧ (let quantities : List Quantity :=
         [.roleValue, .velocity, .density, .concentration, .flowRate, .solidsRate, .pressure]
       ReadsAs (readChecker ws) (at_ 0 0 3 < 7 ∧ fLe (widen (w 1)) (widen (w 2)) = true)
         ⟨quantities.getD (at_ 0 0 3) .roleValue, w 1, w 2⟩)
    ∧ (let forms : List InputForm := [.signed, .unsigned, .float]
       ReadsAs (readConversion ws) (at_ 3 8 2 < 3 ∧ ∀ k, k < 3 → f32IsFinite (w k) = true)
         ⟨forms.getD (at_ 3 8 2) .signed, flag 3 12, w 0, w 1, w 2⟩)
    ∧ ReadsAs (readPoint ws)
        (isPositive (w 0) ∧ isPositive (w 1) ∧ isPositive (w 2) ∧ fLt (widen (w 1)) (widen (w 2)) = true
          ∧ 1 ≤ at_ 5 0 8)
        { enable := flag 6 0
          area := w 0
          water := w 1
          solids := w 2
          pairingLimit := w 3
          gapLimit := w 4
          staleLimit := (w 5).extractLsb' 0 8
          exportFlag := flag 6 1 }
    ∧ ReadsAs (readSegment ws)
        ((flag 0 8 = true → at_ 0 12 4 < 8) ∧ 1 ≤ at_ 1 8 5 ∧ at_ 1 8 5 ≤ 16 ∧ 1 ≤ at_ 1 16 4 ∧ isPositive (w 2)
          ∧ fLe 0 (widen (w 3)) = true ∧ fLt (widen (w 3)) (widen (w 2)) = true)
        { enable := flag 0 0
          inflow := if flag 0 8 then .slot (Fin.ofNat 8 (at_ 0 12 4)) else .point (Fin.ofNat 16 (at_ 0 12 4))
          outflow := Fin.ofNat 16 (at_ 0 16 4)
          basis := if flag 0 4 then .solids else .volume
          lag := at_ 1 0 5
          span := at_ 1 8 5
          persistence := at_ 1 16 4
          threshold := w 2
          clearLevel := w 3 }
    ∧ ReadsAs (readSlot ws) (at_ 0 8 8 < 32) ⟨flag 0 0, (w 0).extractLsb' 8 5⟩
    ∧ (let roles : List Role := [.velocity, .density, .pressure]
       let captures : List CaptureMode := [.none, .next, .every]
       let dispositions : List Disposition := [.process, .passOnly, .relay, .processAndRelay]
       let modes : List CondMode := [.none, .raise, .clear, .replace, .replaceHold]
       let summaryOnly : Prop := at_ 1 16 4 = 15 ∧ at_ 0 16 4 = 8
       (at_ 7 8 2 = 1 → ReadsAs (readClass ws)
         (at_ 2 8 2 < 3 ∧ at_ 2 13 2 < 3 ∧ isCounter (at_ 2 24 6) ∧ at_ 2 16 7 < 32
           ∧ (2 ≤ at_ 2 0 2 → summaryOnly) ∧ (summaryOnly → at_ 2 4 4 < 8))
         (.first
           ⟨(w 0).extractLsb' 0 3, (w 1).extractLsb' 0 3, (w 0).extractLsb' 4 2, (w 1).extractLsb' 4 2,
             (w 0).extractLsb' 8 5, (w 1).extractLsb' 8 5, (w 0).extractLsb' 16 4, (w 1).extractLsb' 16 4,
             (w 0).extractLsb' 24 4, (w 1).extractLsb' 24 4⟩
           { disposition := dispositions.getD (at_ 2 0 2) .process
             target := Fin.ofNat 16 (at_ 2 4 4)
             role := roles.getD (at_ 2 8 2) .velocity
             conversion := Fin.ofNat 32 (at_ 2 16 7)
             store := if flag 2 12 then .converted else .raw
             counter := counterAt (at_ 2 24 6)
             capture := captures.getD (at_ 2 13 2) .none }))
       ∧ (at_ 7 8 2 = 2 → ReadsAs (readClass ws)
         (at_ 3 0 3 < 5 ∧ 1 ≤ at_ 3 16 2 ∧ at_ 3 16 2 ≤ 2 ∧ 1 ≤ at_ 3 18 2 ∧ at_ 3 18 2 ≤ 2 ∧ at_ 3 20 2 < 3
           ∧ isCounter (at_ 3 24 6) ∧ at_ 3 14 2 = 0 ∧ ¬(at_ 0 24 2 = 3 ∧ at_ 0 8 2 = 3))
         (.second
           ⟨(w 0).extractLsb' 0 4, (w 0).extractLsb' 16 4, (w 0).extractLsb' 8 2, (w 0).extractLsb' 24 2,
             (w 1).extractLsb' 0 8, (w 1).extractLsb' 8 8, (w 1).extractLsb' 16 7, (w 1).extractLsb' 24 7,
             (w 2).extractLsb' 24 1, (w 2).extractLsb' 25 1, (w 2).extractLsb' 0 8, (w 2).extractLsb' 8 8,
             (w 2).extractLsb' 16 4, (w 2).extractLsb' 20 4⟩
           { mode := modes.getD (at_ 3 0 3) .none
             operand := (w 3).extractLsb' 8 8
             accumulate := at_ 3 16 2 == 1
             counter := counterAt (at_ 3 24 6)
             capture := captures.getD (at_ 3 20 2) .none
             matchInterrupt := at_ 3 18 2 == 1 }))
       ∧ (at_ 7 8 2 = 0 ∨ at_ 7 8 2 = 3 → readClass ws = none))
    ∧ fieldsOk .globalSettings ws = (readGlobal ws).isSome ∧ fieldsOk .band ws = (readBand ws).isSome
    ∧ (∀ i, fieldsOk (.checker i) ws = (readChecker ws).isSome)
    ∧ (∀ i, fieldsOk (.conversion i) ws = (readConversion ws).isSome)
    ∧ (∀ p, fieldsOk (.point p) ws = (readPoint ws).isSome)
    ∧ (∀ g, fieldsOk (.segment g) ws = (readSegment ws).isSome)
    ∧ (∀ r, fieldsOk (.slot r) ws = (readSlot ws).isSome)
    ∧ ∀ e, fieldsOk (.classification e) ws = (readClass ws).isSome

/-- A response to a held write stands on the port for this transaction. -/
def HeldWaits (s : State) (t : Transaction) (access : Access) (purpose : Purpose) (words : List Word) (n : Nat) : Prop :=
  s.path.port = some ⟨.heldWrite, access, false⟩ ∧ s.path.current = some ⟨t, .held purpose words n⟩

/-- R13, R39, R182: a held write is issued again up to 8 attempts; when it fails, nothing is loaded or queued and the
failure is captured; at its DONE a command joins the work queue and its slot becomes ACCEPTED. Which report of the capture
takes a last free place of the own-access queue is the model's choice (log 36). -/
def Obligations.HeldWriteAnswered : Prop :=
  (∀ (s : State) (t : Transaction) (access : Access) (purpose : Purpose) (words : List Word) (n : Nat) (r : Response),
      HeldWaits s t access purpose words n →
      let again := r.answer = .retry ∨ r.answer = .retryFault
      (again → n + 1 < 8 →
        exec (.heldWriteResponse r) s = .next (atPhase t (.held purpose words (n + 1)) (portFree s)))
      ∧ (r.answer = .fault ∨ (again ∧ 8 ≤ n + 1) →
        ∃ s', exec (.heldWriteResponse r) s = .next s'
          ∧ FaultedWith { portFree s with
              cmd := { s.cmd with granted := none }
              pub := { s.pub with digest := { s.pub.digest with sizePending := false } } } s' t.tag
              (s.path.controlTag.setWidth 4) t.kind.faultKind .word t.addr .ownAccessFailed))
  ∧ (∀ (s : State) (t : Transaction) (access : Access) (slot : Fin 8) (words : List Word) (n : Nat) (r : Response),
      HeldWaits s t access (.command slot) words n → r.answer = .done →
      exec (.heldWriteResponse r) s = .next (answered t.tag .done []
        { portFree s with
          engine := { s.engine with
            workQueue := s.engine.workQueue ++ [.command ⟨slot, wordAt words 6, words.take 6⟩] }
          cmd := ⟨upd s.cmd.accepted slot true, none⟩ }))

/-- R31, R32, R82: at the held write's DONE an entry of the band, the range checkers, the conversions or the
classification takes its new content and generation, or is unloaded; a classification entry's armed flag follows its
capture mode. -/
def Obligations.HeldCommitLoadsTables : Prop :=
  ∀ (s : State) (t : Transaction) (access : Access) (words : List Word) (n : Nat) (r : Response), r.answer = .done →
    let base : State :=
      { portFree s with pub := { s.pub with digest := { s.pub.digest with sizePending := false } } }
    let commit (pos : EntryPos) : Word := wordAt words (pos.words - 1)
    let generation (pos : EntryPos) : BitVec 8 := (commit pos).extractLsb' 0 8
    let valid (pos : EntryPos) : Bool := (commit pos).getLsbD 31
    let loads (pos : EntryPos) (s' : State) : Prop := HeldWaits s t access (.commit pos) words n →
      exec (.heldWriteResponse r) s = .next (answered t.tag .done [] s')
    loads .band { base with cls := { s.cls with
        band := ⟨generation .band, if valid .band then readBand words else none⟩ } }
    ∧ (∀ i, loads (.checker i) { base with cls := { s.cls with
        checkers := upd s.cls.checkers i
          ⟨generation (.checker i), if valid (.checker i) then readChecker words else none⟩ } })
    ∧ (∀ i, loads (.conversion i) { base with arith := { s.arith with
        conversions := upd s.arith.conversions i
          ⟨generation (.conversion i), if valid (.conversion i) then readConversion words else none⟩ } })
    ∧ (∀ e, let entry := if valid (.classification e) then readClass words else none
        loads (.classification e) { base with cls := { s.cls with
          entries := upd s.cls.entries e ⟨generation (.classification e), entry⟩
          armed := upd s.cls.armed e (armable entry) } })

/-- The release word of a record reserved while this window is current (R171). -/
def releaseAt (window : Word) (s : State) : Word :=
  packed [(s.timer.count.toNat, 0), (window.toNat % 65536, 16)]

/-- The origins of a CONDITION record, as fields of its first body word (Table 11-15). -/
def originFields (o : Origins) : List (Nat × Nat) :=
  [(o.lookup.isSome.toNat, 16), (o.engine.toNat, 17), (o.command.toNat, 18), (o.balance.toNat, 19), (o.commit.toNat, 20),
    ((o.lookup.map (·.val)).getD 0, 24)]

/-- The CONDITION record of a segment whose conditions changed, and none for one whose did not (R146, Table 11-15). -/
def segmentReports (g : Fin 8) (o : Origins) (window release : Word) (old new : Segment) : List Report :=
  let difference : Word := match new.lastDifference with
    | none => 0
    | some (.value d) => narrow d
    | some .gap => 0x7FC00000#32
  if old.conditions = new.conditions then []
  else [⟨.condition, [packed ([(1, 0), (g.val, 4)] ++ originFields o), window,
    packed [(old.conditions.toNat, 0), (new.conditions.toNat, 8)], narrow new.sum, difference], release⟩]

/-- The CONDITION record of a point whose conditions or HOLD changed, and none for one whose did not (R118, Table 11-15). -/
def pointReports (p : Fin 16) (o : Origins) (window release : Word) (old new : PointRecord) : List Report :=
  if old.conditions = new.conditions ∧ old.hold = new.hold then []
  else [⟨.condition, [packed ([(p.val, 4), (new.hold.toNat, 8)] ++ originFields o), window,
    packed [(old.conditions.toNat, 0), (new.conditions.toNat, 8)]], release⟩]

/-- The PROVING record of a change of the proving state (R153, Table 11-15). -/
def provingReports (window release : Word) (old new : ProvingState) : List Report :=
  if old.run = new.run then []
  else [⟨.proving, [packed [(new.number.toNat, 0), (new.run.code, 16), (new.abort.code, 20)],
    packed [(new.test.val, 0), (new.reference.val, 4), (new.elapsed.toNat, 8)], window], release⟩]

/-- R31, R32, R115, R126, R140, R146: at the held write's DONE a point entry loads with the effect of R115 on its record
and, when the loaded copy changes, its generation alone too, a publication asked for, but none at the unloading of an
UNLOADED entry: which loads change the entry is the model's reading (log 33). A remote slot entry loads with the effect of
R126, and a segment entry empties its record, FILLING or DISABLED, and has it published, a change of its conditions being
reported with origin COMMIT; that the record of this report shows S and the last difference as after the load, and the
current window number, is the model's reading (log 11). -/
def Obligations.HeldCommitLoadsPointSlotSegment : Prop :=
  (∀ (s : State) (t : Transaction) (access : Access) (words : List Word) (n : Nat) (r : Response), r.answer = .done →
      (∀ p, HeldWaits s t access (.commit (.point p)) words n →
        let entry := if (wordAt words 15).getLsbD 31 then readPoint words else none
        let old := s.engine.points.get p
        let record : PointRecord :=
          if s.pointEnabled p = true ∧ entryEnabled entry = true then
            { old with window := { old.window with volumeComplete := false, solidsComplete := false } }
          else if entryEnabled entry = true then
            { old with
              window := ⟨0, 0, 0, 0, false, false, false⟩
              baseFlag := false
              densityPresent := false
              silentWindows := 0 }
          else old
        let loaded : Loaded PointEntry := ⟨(wordAt words 15).extractLsb' 0 8, entry⟩
        let before := s.engine.pointEntries.get p
        let unchanged : Prop := loaded = before ∨ (entry = none ∧ before.entry = none)
        let settled : State := { portFree s with
          engine := { s.engine with
            pointEntries := upd s.engine.pointEntries p loaded
            points := upd s.engine.points p record }
          pub := { s.pub with digest := { s.pub.digest with sizePending := false } } }
        (unchanged →
          exec (.heldWriteResponse r) s = .next (answered t.tag .done [] settled))
        ∧ (¬unchanged →
          ∃ s', exec (.heldWriteResponse r) s = .next s' ∧ ReportsFrom (answered t.tag .done [] settled) s'
            ∧ Asked (pointRecordNo p) s' ∧ s'.irq = s.irq ∧ s'.pub.digest = settled.pub.digest))
      ∧ (∀ i, HeldWaits s t access (.commit (.slot i)) words n →
        let entry := if (wordAt words 3).getLsbD 31 then readSlot words else none
        let old := s.engine.slots.get i
        let slot : RemoteSlot :=
          if slotEnabled (s.engine.slotEntries.get i).entry = true ∧ slotEnabled entry = true then
            { old with allComplete := false }
          else if slotEnabled entry = true then
            ⟨0, 0, 0, false, false, old.closedVolume, old.closedSolids, old.closedComplete⟩
          else old
        ∃ s', exec (.heldWriteResponse r) s = .next s'
          ∧ ReportsFrom (answered t.tag .done [] { portFree s with engine := { s.engine with
              slotEntries := upd s.engine.slotEntries i ⟨(wordAt words 3).extractLsb' 0 8, entry⟩
              slots := upd s.engine.slots i slot } }) s'))
  ∧ (∀ (s : State) (t : Transaction) (access : Access) (words : List Word) (n : Nat) (r : Response) (g : Fin 8),
      r.answer = .done → HeldWaits s t access (.commit (.segment g)) words n →
        let entry := if (wordAt words 15).getLsbD 31 then readSegment words else none
        ∃ s', exec (.heldWriteResponse r) s = .next s'
          ∧ ReportsFrom (answered t.tag .done [] { portFree s with balance := { s.balance with
              entries := upd s.balance.entries g ⟨(wordAt words 15).extractLsb' 0 8, entry⟩
              segments := upd s.balance.segments g
                ⟨if segmentEnabled entry then .filling else .disabled, [], [], 0, 0, 0, 0, 0, none, none⟩ } }) s'
          ∧ Asked (segmentRecordNo g) s'
          ∧ Reported (segmentReports g { Origins.none with commit := true } s.engine.windowNumber (releaseAt s.engine.windowNumber s)
              (s.balance.segments.get g) (s'.balance.segments.get g))
              { s with pub := { s.pub with digest := { s.pub.digest with sizePending := false } } } s'
          ∧ ((s.balance.segments.get g).conditions ≠ 0 → s.inEffect.causeEnable.getLsbD 1 = true → s'.irq.getLsbD 1 = true))

/-- The address lies in a sample window that these settings change, as that window stands before them (R36). -/
def inMovedWindow (s : State) (now : GlobalSettings) (a : Addr) : Bool :=
  (windowOf s a).any (fun w =>
    let before := s.inEffect.windows.get w
    let after := now.windows.get w
    (before.enable || after.enable) && before != after)

/-- R31 to R40: at the held write's DONE the global settings load: the values in effect are the new ones, causes no longer
enabled leave the pending set, a new ring size leaves every entry FREE, and a change of processing enable starts or stops
the timer; no other block's table changes. Every open frame in a changed window is torn, counted and its target marked; a
held sample word in one, which a load by a FETCH item meets (R42), loses its effect (R36). At an enable a RESTART record
with reason ENABLE is reserved, kept or lost as the ring stands after the load, and DIGEST joins the causes at the
threshold. That a frame lies in the window which decode gives its address under the old settings, where windows overlap, is
the model's reading (log 9). That a new ring size sets entries FREE that are occupied when it takes effect, which R39 does
not meet, is the model's choice (log 24). -/
def Obligations.HeldCommitLoadsGlobalSettings : Prop :=
  (∀ (s : State) (t : Transaction) (access : Access) (words : List Word) (n : Nat) (r : Response),
    r.answer = .done → HeldWaits s t access (.commit .globalSettings) words n →
      let entry := if (wordAt words 15).getLsbD 31 then readGlobal words else none
      let now := entry.getD GlobalSettings.unloaded
      ∃ s', exec (.heldWriteResponse r) s = .next s'
        ∧ s'.settings = ⟨(wordAt words 15).extractLsb' 0 8, entry⟩
        ∧ s'.inEffect = now
        ∧ (now.enable = s.inEffect.enable → s'.irq = s.irq &&& now.causeEnable ∧ s'.timer = s.timer)
        ∧ (s.inEffect.enable = true → now.enable = false →
            s'.irq = s.irq &&& now.causeEnable ∧ s'.timer = { s.timer with running := false })
        ∧ (s.inEffect.enable = false → now.enable = true →
            let resized := now.ringSize ≠ s.inEffect.ringSize
            let entries := if resized then [] else s.pub.digest.occupied
            let oldest := if resized then 0 else s.pub.digest.oldest
            let d := { s.pub.digest with oldest := oldest, occupied := entries, sizePending := false }
            let item : OwnItem := .digest ((oldest + entries.length) % now.ringSize)
              (digestWords (digestHead .restart d.lost d.nextSequence) [0, s.engine.windowNumber, 0]
                (packed [(s.engine.windowNumber.toNat % 65536, 16)]))
            (entries.length < now.ringSize →
                s'.pub.digest = { d with
                  occupied := entries ++ [⟨false, d.nextSequence, d.lost⟩]
                  nextSequence := d.nextSequence + 1
                  lost := 0 }
                ∧ s'.pub.digestLost = s.pub.digestLost
                ∧ (s.pub.queue.length < 32 → s.pub.heldDigests = [] → s'.pub.queue = s.pub.queue ++ [item]))
              ∧ (now.ringSize ≤ entries.length →
                s'.pub.digest = { d with lost := BitVec.ofNat 8 (min (d.lost.toNat + 1) 255) }
                ∧ s'.pub.digestLost = s.pub.digestLost + 1 ∧ s'.pub.queue = s.pub.queue)
              ∧ s'.irq = (s.irq &&& now.causeEnable)
                ||| (if now.threshold ≤ s'.pub.digest.occupied.length then 8#6 &&& now.causeEnable else 0))
        ∧ (s.inEffect.enable = false → now.enable = true → s'.timer = ⟨true, 0, some now.period⟩)
        ∧ (∀ p, let marked := s.pointEnabled p = true ∧ ((s.inEffect.enable = false ∧ now.enable = true)
              ∨ ∃ m f, s.asm.records.get m = some f ∧ inMovedWindow s now f.address = true
                ∧ targetOf (f.kind == kindSummary) f.lookup = .point p)
            let old := s.engine.points.get p
            (marked → s'.engine.points.get p =
              { old with window := { old.window with volumeComplete := false, solidsComplete := false } })
            ∧ (¬marked → s'.engine.points.get p = old))
        ∧ (∀ i, let marked := slotEnabled (s.engine.slotEntries.get i).entry = true
              ∧ ∃ m f, s.asm.records.get m = some f ∧ inMovedWindow s now f.address = true
                ∧ targetOf (f.kind == kindSummary) f.lookup = .slot i
            (marked → s'.engine.slots.get i = { s.engine.slots.get i with allComplete := false })
            ∧ (¬marked → s'.engine.slots.get i = s.engine.slots.get i))
        ∧ (now.ringSize ≠ s.inEffect.ringSize → now.enable = s.inEffect.enable ∨ now.enable = false →
            s'.pub.digest.occupied = [] ∧ s'.pub.digest.oldest = 0
              ∧ s'.pub.digest.nextSequence = s.pub.digest.nextSequence)
        ∧ (∀ m, s'.asm.records.get m = (s.asm.records.get m).filter (fun f => !inMovedWindow s now f.address))
        ∧ s'.asm = { s.asm with
            records := s'.asm.records
            torn := s.asm.torn + BitVec.ofNat 32 (s.asm.records.toList.countP
              (fun x => x.any (fun f => inMovedWindow s now f.address))) }
        ∧ s'.path.current = none ∧ s'.path.completion = some ⟨t.tag, .done, []⟩ ∧ s'.path.lock = s.path.lock
        ∧ s'.cls = s.cls ∧ s'.arith = s.arith ∧ s'.balance = s.balance ∧ s'.proving = s.proving ∧ s'.cmd = s.cmd
        ∧ s'.engine.workQueue = s.engine.workQueue ∧ s'.engine.windowNumber = s.engine.windowNumber
        ∧ s'.engine.pointEntries = s.engine.pointEntries ∧ s'.engine.slotEntries = s.engine.slotEntries)
  ∧ (∀ (s : State) (words : List Word),
      let now := (if (wordAt words 15).getLsbD 31 then readGlobal words else none).getD GlobalSettings.unloaded
      let loaded := loadEntry .globalSettings words s
      (∀ t access holds, s.path.current = some ⟨t, .pass access holds⟩ → loaded.path.current = some ⟨t, .pass access
        (holds.map (fun h => if inMovedWindow s now h.addr then { h with void := true } else h))⟩)
      ∧ ((∀ t access holds, s.path.current ≠ some ⟨t, .pass access holds⟩) → loaded.path.current = s.path.current))

/-! ### Own items (Chapter 9) -/

/-- A response to an access of the oldest own item stands on the port. -/
def OwnWaits (s : State) (it : OwnItem) (rest : List OwnItem) (pr : Progress) (access : Access) : Prop :=
  s.path.port = some ⟨.own, access, false⟩ ∧ s.pub.queue = it :: rest ∧ s.pub.begun = some pr

/-- An item that writes. -/
def writes (it : OwnItem) : Prop := ∀ pos, it ≠ .fetch pos

/-- The state after the oldest item has left (R18, R162). -/
def afterLeaving (rest : List OwnItem) (s : State) : State :=
  { s with
    pub := { s.pub with queue := rest, begun := none }
    path := { s.path with port := none, yield := s.path.yield && decide (8 < rest.length) } }

/-- The DIGEST item at `position` with these words is that of the occupied entry of index `i`: it has the entry's position,
and its head the entry's sequence (R171, Table 11-14). -/
def isItemOf (s : State) (i position : Nat) (words : List Word) : Prop :=
  position = (s.pub.digest.oldest + i) % s.inEffect.ringSize
    ∧ ∃ e, s.pub.digest.occupied[i]? = some e ∧ (wordAt words 0).extractLsb' 16 16 = e.sequence

/-- R18, R20, R165, R168, R172, R185: a DONE that is not the item's last moves it on to its next access, and RETRY
repeats the access, up to 8 attempts. The DONE of its last access makes its record CURRENT, its entry WRITTEN, or its
slot FREE with the COMMAND cause, and the item leaves (nothing in the engine's hand). A FETCH item's reads go on to its
next words, re-read the second word of a pair alone, and are repeated, up to 8 attempts (R42). An item leaves before its
effect takes place (log 14), the first word of a pair decides where one word is answered RETRY and the other FAULT (log
38), and a DIGEST item whose entry another load's ring size has freed changes no entry (log 24): the model's choices. -/
def Obligations.OwnAccessDone : Prop :=
  (∀ (s : State) (it : OwnItem) (rest : List OwnItem) (pr : Progress) (access : Access) (first second : Response),
      OwnWaits s it rest pr access → writes it →
      (first.answer = .done → pr.finished + 1 < it.count → exec (.ownAccessResponse first second) s =
        .next { portFree s with pub := { s.pub with begun := some ⟨pr.finished + 1, 0, [], 0, false⟩ } })
      ∧ (first.answer = .retry ∨ first.answer = .retryFault → pr.fetch.attempts + 1 < 8 →
        exec (.ownAccessResponse first second) s =
          .next { portFree s with pub := { s.pub with
            begun := some ⟨pr.finished, { pr.fetch with attempts := pr.fetch.attempts + 1 }⟩ } }))
  ∧ (∀ (s : State) (pos : EntryPos) (rest : List OwnItem) (pr : Progress) (access : Access) (first second : Response),
      OwnWaits s (.fetch pos) rest pr access →
      let f := pr.fetch
      let one : Bool := f.single || f.got.length + 1 == f.total
      let goesOn (g : Fetch) : Prop := exec (.ownAccessResponse first second) s =
        .next { portFree s with pub := { s.pub with begun := some ⟨pr.finished, g⟩ } }
      (one = true → first.answer = .done → f.got.length + 1 < f.total →
        goesOn { f with got := f.got ++ [first.data], attempts := 0, single := false })
      ∧ (one = false → first.answer = .done → second.answer = .done → f.got.length + 2 < f.total →
        goesOn { f with got := f.got ++ [first.data, second.data], attempts := 0, single := false })
      ∧ (one = false → first.answer = .done → second.answer ≠ .done → f.got.length + 1 < f.total →
        goesOn { f with got := f.got ++ [first.data], attempts := 1, single := true })
      ∧ (first.answer = .retry ∨ first.answer = .retryFault → f.attempts + 1 < 8 → f.got.length < f.total →
        goesOn { f with attempts := f.attempts + 1 }))
  ∧ (∀ (s : State) (it : OwnItem) (rest : List OwnItem) (pr : Progress) (access : Access) (first second : Response),
      OwnWaits s it rest pr access → s.engine.job = none → first.answer = .done → it.count ≤ pr.finished + 1 →
      let run := exec (.ownAccessResponse first second) s
      let left := afterLeaving rest s
      (∀ r content, it = .publish r content → run = .next { left with pub := { left.pub with
          records := upd s.pub.records r { s.pub.records.get r with write := .current } } })
      ∧ (∀ position words, it = .digest position words → s.pub.digest.occupied.length ≤ s.inEffect.ringSize →
          s.pub.digest.oldest < s.inEffect.ringSize →
          (∀ i, isItemOf s i position words →
            run = .next { left with pub := { left.pub with digest := { s.pub.digest with
              occupied := s.pub.digest.occupied.modify i (fun e => { e with written := true }) } } })
          ∧ ((∀ i, ¬isItemOf s i position words) → run = .next left))
      ∧ (∀ at_ words, it = .outbound at_ words → run = .next left)
      ∧ (∀ slot word, it = .status slot word → run = .next { left with
          cmd := { s.cmd with accepted := upd s.cmd.accepted slot false }
          irq := s.irq ||| (0x20#6 &&& s.inEffect.causeEnable) }))

/-- The reload in hand goes on after one more FETCH item: the engine waits to queue a later one, or has queued them all
and more than one is still to finish (R41, R43). -/
def ReloadGoesOn (j : Job) (r : Reload) : Prop :=
  (j.offer.isSome = true ∧ ∃ more, j.acts = .await :: more)
    ∨ (j.acts = [] ∧ r.finished + 1 < 138 ∧ ∃ slot word, j.stages = [.reloadEnd slot word])

/-- A response that ends an own access without DONE: FAULT, or RETRY at the 8th attempt (R20). -/
def endsFailed (pr : Progress) (first : Response) : Prop :=
  first.answer = .fault ∨ ((first.answer = .retry ∨ first.answer = .retryFault) ∧ 8 ≤ pr.fetch.attempts + 1)

/-- A queued publication of record `r` takes this content. -/
def withContent (r : Fin 28) (content : List Word) (it : OwnItem) : OwnItem :=
  match it with
  | .publish r' c => .publish r' (if r' = r then content else c)
  | other => other

/-- What a capture adds to the own-access queue (R21). -/
def isFaultReport (it : OwnItem) : Prop :=
  (∃ position words, it = .digest position words) ∨ ∃ content, it = .publish accessFaultRecordNo content

/-- R20, R21, R42, R165, R169: an item that fails is captured with tag PART and its failing address, and leaves: the queue
is then what stood behind it, followed by the reports of the capture, which sets FAULT and asks for a publication when it
fills the record. Its record is TORN with a publication owed or queued, its entry WRITTEN (R172), no other entry changed, or
its slot's status owed, the same word (nothing in the engine's hand); a FETCH item of a reload raises the failed count and
loads nothing, and after the last one the reload ends, its STATUS item with the counts joining or waiting for room (R43).
The capture comes before the item leaves (log 14), the first word of a pair decides where one word is answered RETRY and
the other FAULT (log 38), and a DIGEST item whose entry another load's ring size has freed changes no entry (log 24): the
model's choices. -/
def Obligations.OwnItemFails : Prop :=
  ∀ (s : State) (it : OwnItem) (rest : List OwnItem) (pr : Progress) (access : Access) (first second : Response),
    OwnWaits s it rest pr access → endsFailed pr first →
    let captured := afterCapture s.path.fault 8#4 it.faultKind .word access.addr .ownAccessFailed
    let failed : State := { portFree s with path := { (portFree s).path with fault := some captured } }
    let behind := if (s.pub.records.get accessFaultRecordNo).mark = .queued ∧ s.path.fault ≠ some captured then
        rest.map (withContent accessFaultRecordNo (accessFaultWords (some captured)))
      else rest
    let leaves (also : OwnItem → Prop) (s' : State) : Prop := s'.pub.begun = none
      ∧ (∃ joined, s'.pub.queue = behind ++ joined ∧ ∀ x ∈ joined, isFaultReport x ∨ also x)
      ∧ (s.path.fault = none → Asked accessFaultRecordNo s'
        ∧ (s.inEffect.causeEnable.getLsbD 0 = true → s'.irq.getLsbD 0 = true))
    (s.engine.job = none → writes it →
      ∃ s', exec (.ownAccessResponse first second) s = .next s' ∧ ReportsFrom failed s' ∧ leaves (fun _ => False) s'
        ∧ (∀ r content, it = .publish r content → (s'.pub.records.get r).write = .torn ∧ Asked r s')
        ∧ (∀ position words, it = .digest position words → s.pub.digest.occupied.length ≤ s.inEffect.ringSize →
            s.pub.digest.oldest < s.inEffect.ringSize →
            let entries := s'.pub.digest.occupied.take s.pub.digest.occupied.length
            (∀ i, isItemOf s i position words →
              entries = s.pub.digest.occupied.modify i (fun e => { e with written := true }))
            ∧ ((∀ i, ¬isItemOf s i position words) → entries = s.pub.digest.occupied))
        ∧ (∀ slot word, it = .status slot word →
            ∃ w, (slot, w) ∈ s'.pub.owedStatus ∧ (w = word ∨ (slot, w) ∈ s.pub.owedStatus)))
    ∧ (∀ pos j r, it = .fetch pos → s.engine.job = some j → s.engine.reload = some r → ReloadGoesOn j r →
      ∃ s', exec (.ownAccessResponse first second) s = .next s'
        ∧ ReportsFrom { failed with engine := { s.engine with
            reload := some ⟨r.finished + 1, r.refused, r.failed + 1⟩ } } s'
        ∧ s'.engine.job = some j ∧ leaves (fun _ => False) s')
    ∧ (∀ pos j r slot word, it = .fetch pos → s.engine.job = some j → s.engine.reload = some r → j.acts = [] →
      j.stages = [.reloadEnd slot word] → j.offer = none → 138 ≤ r.finished + 1 →
      s.pub.heldDigests.any (·.byEngine) = false →
      let status := statusWord word .none r.refused (r.failed + 1)
      ∃ s', exec (.ownAccessResponse first second) s = .next s'
        ∧ ReportsFrom { failed with engine := { s.engine with reload := none } } s' ∧ leaves (· = .status slot status) s'
        ∧ (rest.length < 32 → s'.engine.job = none)
        ∧ (s'.engine.job = none → OwnItem.status slot status ∈ s'.pub.queue)
        ∧ ∀ j', s'.engine.job = some j' → j'.offer = some (.status slot status))

/-- R41 to R43, R20: a FETCH item whose last words are read, the last one again alone too, is decided at once: an accepted
entry loads, a refused one is counted. The engine waits on, whether it still queues items or they are all queued and some
are to finish; with the last item finished the reload ends and its STATUS item, with the refused and failed counts, joins
or waits for room. The item leaves before its effect: the model's choice (log 14). -/
def Obligations.FetchItemDecided : Prop :=
  ∀ (s : State) (pos : EntryPos) (rest : List OwnItem) (pr : Progress) (access : Access) (first second : Response)
    (j : Job) (r : Reload),
    ∀ last : List Word, OwnWaits s (.fetch pos) rest pr access → first.answer = .done →
    (pr.fetch.got.length + 1 = pr.fetch.total ∧ last = [first.data])
      ∨ (pr.fetch.got.length + 2 = pr.fetch.total ∧ pr.fetch.single = false ∧ second.answer = .done
        ∧ last = [first.data, second.data]) →
    s.engine.job = some j → s.engine.reload = some r →
    let run := exec (.ownAccessResponse first second) s
    let left := afterLeaving rest s
    let words := pr.fetch.got ++ last
    let decided (refused : Nat) (s' : State) : Prop :=
      (ReloadGoesOn j r → run = .next { s' with engine := { s'.engine with
        reload := some ⟨r.finished + 1, refused, r.failed⟩ } })
      ∧ (∀ slot word, j.acts = [] → j.stages = [.reloadEnd slot word] → j.offer = none → 138 ≤ r.finished + 1 →
          s.pub.heldDigests.any (·.byEngine) = false →
          let status := statusWord word .none refused r.failed
          (s'.pub.queue.length < 32 → run = .next (joinQueue (.status slot status)
            { s' with engine := { s'.engine with reload := none, job := none } }))
          ∧ (32 ≤ s'.pub.queue.length → run = .next { s' with engine := { s'.engine with
              reload := none
              job := some { j with acts := [.await], stages := [], offer := some (.status slot status) } } }))
    (∀ reason, decideEntry left pos words = .refused reason → decided (r.refused + 1) left)
    ∧ (decideEntry left pos words = .accepted → decided r.refused (loadEntry pos words left))

/-- A reload is in hand whose FETCH items are all queued and not all finished: nothing waits for room (R43). -/
def ReloadAwaitsFetches (s : State) : Prop :=
  ∃ j r slot word, s.engine.job = some j ∧ s.engine.reload = some r ∧ r.finished < 138 ∧ j.offer = none ∧ j.acts = []
    ∧ j.stages = [.reloadEnd slot word]

/-- R164: a free place goes to the DIGEST item of the oldest reservation, before any other item of a waiting producer;
else to the waiting producer's item (an OUTBOUND item taking
its ring position then, R176), else to the OWED record of lowest number with its content as it stands, else to the
owed status of lowest slot, with no item in the engine's hand or a reload in hand whose FETCH items are all queued. A
waiting producer goes on within the same event: the model's choice (log 28). -/
def Obligations.PlaceGivenInOrder : Prop :=
  ∀ (s : State), s.pub.queue.length < 32 →
    let idle : Prop := s.engine.job = none ∨ ReloadAwaitsFetches s
    (∀ h rest, s.pub.heldDigests = h :: rest →
      let given := joinQueue (.digest h.position h.words) { s with pub := { s.pub with heldDigests := rest } }
      (idle → exec .queuePlaceGiven s = .next given)
      ∧ (∀ j more, s.engine.job = some j → j.offer.isSome = true ∨ rest.any (·.byEngine) = true → j.acts = .await :: more →
          exec .queuePlaceGiven s = .next given)
      ∧ (∀ j, s.engine.job = some j → j.offer = none → j.acts = [.await] → j.stages = [] →
          rest.any (·.byEngine) = false → exec .queuePlaceGiven s =
            .next { given with engine := { given.engine with job := none } }))
    ∧ (∀ j slot word, s.pub.heldDigests = [] → s.engine.job = some j → j.offer = some (.status slot word) →
      j.acts = [.await] → j.stages = [] → exec .queuePlaceGiven s =
        .next (joinQueue (.status slot word) { s with engine := { s.engine with job := none } }))
    ∧ (∀ j frame, s.pub.heldDigests = [] → s.engine.job = some j → j.offer = some (.outbound frame) →
      (∃ t, exec .queuePlaceGiven s = .next t ∧ OwnItem.outbound s.pub.outboundIndex frame ∈ t.pub.queue)
      ∧ ∀ w, j.acts = [.await, .countRelayed] → j.stages = [.frameEffects, .report] → j.frame = some w →
          w.sample = none → (∀ p, j.before.get p = ((s.engine.points.get p).conditions, (s.engine.points.get p).hold)) →
          exec .queuePlaceGiven s = .next (joinQueue (.outbound s.pub.outboundIndex frame) { s with
            engine := { s.engine with job := none }
            pub := { s.pub with outboundIndex := s.pub.outboundIndex + 1 }
            balance := { s.balance with relayed := s.balance.relayed + 1 } }))
    ∧ (∀ j pos, s.pub.heldDigests = [] → s.engine.job = some j → j.offer = some (.fetch pos) →
      (∃ t, exec .queuePlaceGiven s = .next t ∧ OwnItem.fetch pos ∈ t.pub.queue)
      ∧ (∀ next more, s.pub.queue.length = 31 → j.acts = .await :: .offer (.fetch next) :: .await :: more →
          exec .queuePlaceGiven s = .next (joinQueue (.fetch pos) { s with engine := { s.engine with
            job := some { j with acts := .await :: more, offer := some (.fetch next) } } }))
      ∧ ∀ r, j.acts = [.await] → s.engine.reload = some r → r.finished < 138 →
          (∃ slot word, j.stages = [.reloadEnd slot word]) →
          exec .queuePlaceGiven s = .next (joinQueue (.fetch pos)
            { s with engine := { s.engine with job := some { j with acts := [], offer := none } } }))
    ∧ (∀ r : Fin 28, s.pub.heldDigests = [] → idle → (s.pub.records.get r).mark = .owed →
      (∀ q : Fin 28, q < r → (s.pub.records.get q).mark ≠ .owed) → exec .queuePlaceGiven s =
        .next (setRecord r { s.pub.records.get r with mark := .queued }
          (joinQueue (.publish r (recordContent s r)) s)))
    ∧ (∀ slot word, s.pub.heldDigests = [] → idle → (∀ r, (s.pub.records.get r).mark ≠ .owed) →
      s.pub.owedStatus.find? (fun x => x.1 == slot) = some (slot, word) → (∀ x ∈ s.pub.owedStatus, slot ≤ x.1) →
      exec .queuePlaceGiven s = .next (joinQueue (.status slot word)
        { s with pub := { s.pub with owedStatus := s.pub.owedStatus.filter (fun x => x.1 != slot) } }))
    ∧ (s.pub.heldDigests = [] → idle → (∀ r, (s.pub.records.get r).mark ≠ .owed) →
      s.pub.owedStatus = [] → exec .queuePlaceGiven s = .next s)

/-- R171, R164: a reservation is kept at the next position with the next sequence and the lost count, or lost and counted;
after either, DIGEST is set at or above the threshold. The item joins at once when the queue is not full and no older
DIGEST item is held back, and is held back otherwise. That it waits behind an older held item although the queue is not
full is the model's reading (log 6). -/
def Obligations.ReservationKeptOrLost : Prop :=
  ∀ (s : State) (asker : Requester) (kind : DigestKind) (body : List Word),
    let d := s.pub.digest
    let r := reserve asker kind body s
    let item := digestWords (digestHead kind d.lost d.nextSequence) body (releaseWord s)
    let position := (d.oldest + d.occupied.length) % s.inEffect.ringSize
    let kept := d.sizePending = false ∧ d.occupied.length < s.inEffect.ringSize
    (kept → r.pub.digest = { d with
        occupied := d.occupied ++ [⟨false, d.nextSequence, d.lost⟩], nextSequence := d.nextSequence + 1, lost := 0 }
      ∧ r.pub.digestLost = s.pub.digestLost
      ∧ (s.pub.queue.length < 32 ∧ s.pub.heldDigests = [] →
          r.pub.queue = s.pub.queue ++ [.digest position item] ∧ r.pub.heldDigests = [])
      ∧ (¬(s.pub.queue.length < 32 ∧ s.pub.heldDigests = []) → r.pub.queue = s.pub.queue
          ∧ r.pub.heldDigests = s.pub.heldDigests ++ [⟨position, item, asker == .engine⟩]))
    ∧ (¬kept → r.pub.digest = { d with lost := BitVec.ofNat 8 (min (d.lost.toNat + 1) 255) }
      ∧ r.pub.digestLost = s.pub.digestLost + 1 ∧ r.pub.queue = s.pub.queue
      ∧ r.pub.heldDigests = s.pub.heldDigests)
    ∧ r.irq = (if s.inEffect.threshold ≤ r.pub.digest.occupied.length then
        s.irq ||| (8#6 &&& s.inEffect.causeEnable) else s.irq)
    ∧ ReportsFrom s r

/-- The two words of a binary64 field, the high one first (R191). -/
def highWord (x : F64) : Word := x.extractLsb' 32 32
def lowWord (x : F64) : Word := x.extractLsb' 0 32

/-- Tables 11-8 to 11-15, R193: what a publication writes into each protected record, its sequences apart, and what a digest
entry and a status word hold, word by word, each word the sum of its fields at their places. A statistics or segment
record is that of a state within the bounds that every step keeps. Three points are the model's: a segment's last comparison
window shows 0 while there is none (log 35), a first-lookup capture under PASS ONLY or RELAY shows target form NONE and
target 0 (log 19), and a sample without a converted value, which no reached state has, shows a NaN (log 18). -/
def Obligations.RecordWordsWritten : Prop :=
  (∀ (s : State) (p : Fin 16), let x := s.engine.points.get p
    recordContent s (Fin.ofNat 28 p.val) =
      [packed [(x.conditions.toNat, 16), (x.hold.toNat, 24), ((s.pointEnabled p).toNat, 25), (x.densityPresent.toNat, 26),
          (x.window.volumeComplete.toNat, 27), (x.window.solidsComplete.toNat, 28), (x.window.velocitySeen.toNat, 29),
          (x.closed.volumeComplete.toNat, 30), (x.closed.solidsComplete.toNat, 31)],
        highWord x.volumeTotal, lowWord x.volumeTotal, highWord x.solidsTotal, lowWord x.solidsTotal,
        highWord x.closed.volume, lowWord x.closed.volume, highWord x.closed.solids, lowWord x.closed.solids, x.closed.number, x.sampleCount,
        packed [(min x.window.samples 65535, 0), (min x.window.excluded 65535, 16)], narrow x.velocity, narrow x.density,
        narrow x.pressure, packed [(x.sticky.toNat, 16), (x.silentWindows, 24)]])
  ∧ (∀ (s : State) (g : Fin 8), let x := s.balance.segments.get g
    let last : F64 := match x.lastDifference with
      | some (.value d) => d
      | _ => 0
    let form : Nat := match x.lastDifference with
      | none => 0
      | some (.value _) => 1
      | some .gap => 2
    let newest (k : Nat) : Word := match x.ring.reverse[k]? with
      | none => 0
      | some (.value d) => narrow d
      | some .gap => 0x7FC00000#32
    SegmentsSound s → recordContent s (Fin.ofNat 28 (16 + g.val)) =
        [packed [(match x.state with | .disabled => 0 | .filling => 1 | .watching => 2, 16), (x.conditions.toNat, 18),
            (x.lag.length, 21), (x.ring.length, 26)],
          highWord x.sum, lowWord x.sum, highWord last, lowWord last, x.lastWindow.getD 0,
          packed ((form, 0) :: x.ring.mapIdx (fun i d => (if d = .gap then 1 else 0, 16 + i))),
          newest 0, newest 1, newest 2, newest 3, newest 4, newest 5, newest 6, newest 7,
          packed [(x.loss, 16), (x.gain, 20), (x.clear, 24)]])
  ∧ (∀ s : State, WorkQueueBounded s → OwnQueueBounded s →
      recordContent s 24 =
        [packed [(s.inEffect.enable.toNat, 16), (s.path.baseStraps.toNat, 20), (s.path.controlTag.toNat, 24)],
          s.asm.closed, s.engine.processed, s.asm.overrun, s.asm.checkFailed, s.asm.torn, s.engine.droppedByReset,
          s.engine.unclassified, s.engine.toDisabledPoint, s.balance.relayed, s.balance.relayDropped, s.pub.digestLost,
          s.pub.digestAbandoned, s.engine.lateWindows, s.engine.windowNumber,
          packed [(s.engine.workQueue.length, 0), (s.pub.queue.length, 8), (s.pub.digest.occupied.length, 16)]]
        ++ s.cls.hits.toList ++ List.replicate 16 0)
  ∧ (∀ s : State, let r := s.proving
    recordContent s 25 =
      [packed [(r.run.code, 16), (r.abort.code, 20), (r.invalid.toNat, 24), (r.incomplete.toNat, 25)],
        packed [(r.number.toNat, 0), (r.owner.toNat, 16), (r.test.val, 24), (r.reference.val, 28)],
        packed [(r.requested.toNat, 0), (r.elapsed.toNat, 8)], r.firstWindow, highWord r.testVolume, lowWord r.testVolume,
        highWord r.referenceVolume, lowWord r.referenceVolume, r.testCount, r.referenceCount,
        highWord r.factor, lowWord r.factor, highWord r.deviation, lowWord r.deviation, 0, 0])
  ∧ (∀ s : State,
      (s.path.fault = none → recordContent s 26 = List.replicate 8 0)
      ∧ (∀ f, s.path.fault = some f → recordContent s 26 =
          [packed [(1, 16), (f.further.toNat, 24)],
            packed [(f.tag.toNat, 0), (f.kind.code, 8), (sizeCode f.size, 12), (f.reason.code, 16)],
            f.addr.setWidth 32, 0, 0, 0, 0, 0])
      ∧ (s.arith.fault = none → recordContent s 27 = List.replicate 8 0)
      ∧ ∀ f, s.arith.fault = some f → recordContent s 27 =
          [packed [(1, 16), (f.further.toNat, 24)],
            packed [(f.target.toNat, 0), (f.role.code, 4), (f.channel.toNat, 8), (f.sequence.toNat, 16),
              (f.step.code, 24)],
            f.raw, f.kinds.setWidth 32, 0, 0, 0, 0])
  ∧ (∀ (s : State) (kind : DigestKind) (lost : BitVec 8) (sequence : BitVec 16) (a b c : Word),
      let head := digestHead kind lost sequence
      head = packed [(kind.code, 0), (lost.toNat, 8), (sequence.toNat, 16)]
      ∧ releaseWord s = packed [(s.timer.count.toNat, 0), (s.engine.windowNumber.toNat % 65536, 16)]
      ∧ (∀ release, digestWords head [a, b, c] release = [head, a, b, c, 0, 0, 0, release])
      ∧ ∀ d e f release, digestWords head [a, b, c, d, e, f] release = [head, a, b, c, d, e, f, release])
  ∧ (∀ (s : State) (f : FrameItem) (l : LookupResult) (p : Fin 16) (q : Quantities) (entry : Fin 64)
      (generation : BitVec 8) (mode : CaptureMode),
      let key := sampleKey s p f q
      let target (t : Target) : Nat × Nat := match t with
        | .none => (0, 0)
        | .point p => (1, p.val)
        | .slot r => (2, r.val)
      let frame : Word := packed [(f.tag.val, 0), (f.window.val, 3), (f.kind.toNat, 5), ((headChannel f.head).toNat, 9),
        ((headQuality f.head).toNat, 14), ((headSequence f.head).toNat, 24)]
      let first : List Word :=
        [packed [(l.action.capture.code, 1), (l.index.val, 8), (l.generation.toNat, 16)], frame]
      let shown := target (targetOf f.isSummary f.lookup)
      let value : Word := narrow (f.value.getD f64NaN)
      (f.isSummary = false → firstCaptureBody f l = first ++
          [packed [(shown.1, 0), (shown.2, 4), (l.action.role.code, 8)], f.timeStamp, value, 0])
      ∧ (f.isSummary = true → firstCaptureBody f l = first ++
          [packed [(shown.1, 0), (shown.2, 4), (3, 8)],
            packed [(f.station.toNat, 0), (f.upstreamPoint.toNat, 8), (f.hops.toNat, 16)], f.summaryWindow,
            narrow f.summaryVolume])
      ∧ (f.isSummary = false → secondCaptureBody f key entry generation mode =
          [packed [(1, 0), (mode.code, 1), (entry.val, 8), (generation.toNat, 16)], frame,
            packed [(1, 0), (key.point.val, 4), (key.role.code, 8), (key.range.toNat, 16), (key.band, 24),
              (key.available.toNat, 27)], f.timeStamp, value, key.conditions.setWidth 32]))
  ∧ (∀ (p : Fin 16) (hold : Bool) (o : Origins) (window : Word) (before after : BitVec 8) (g : Fin 8) (was : BitVec 3)
      (x : Segment) (r : ProvingState) (busReset : Bool) (entries torn : Nat),
      let difference : Word := match x.lastDifference with
        | none => 0
        | some (.value d) => narrow d
        | some .gap => 0x7FC00000#32
      pointConditionBody p hold o window before after =
          [packed ([(p.val, 4), (hold.toNat, 8)] ++ originFields o), window,
            packed [(before.toNat, 0), (after.toNat, 8)]]
      ∧ segmentConditionBody g o window was x =
          [packed ([(1, 0), (g.val, 4)] ++ originFields o), window,
            packed [(was.toNat, 0), (x.conditions.toNat, 8)], narrow x.sum, difference]
      ∧ provingBody r window =
          [packed [(r.number.toNat, 0), (r.run.code, 16), (r.abort.code, 20)],
            packed [(r.test.val, 0), (r.reference.val, 4), (r.elapsed.toNat, 8)], window]
      ∧ (entries ≤ 256 → torn ≤ 28 → restartBody busReset window entries torn =
          [packed [(busReset.toNat, 0)], window, packed [(entries, 0), (torn, 16)]]))
  ∧ (∀ (command : Word) (reason : StatusReason) (refused failed : Nat), refused ≤ 255 →
      statusWord command reason refused failed =
        packed [((command.extractLsb' 0 4).toNat, 0), (reason.code, 4), ((command.extractLsb' 16 8).toNat, 8),
          (refused, 16), (failed, 24)])
  ∧ [Role.velocity, .density, .pressure, .summary].map Role.code = [0, 1, 2, 3]
  ∧ [CaptureMode.none, .next, .every].map CaptureMode.code = [0, 1, 2] ∧ [Size.byte, .half, .word].map sizeCode = [0, 1, 2]
  ∧ [FaultKind.read, .write, .pairRead, .pairWrite, .lockRead, .lockWrite, .vectorRead, .publish, .digest, .outbound,
      .status, .fetch].map FaultKind.code = [1, 2, 3, 4, 5, 6, 7, 8, 9, 10, 11, 12]
  ∧ [FaultReason.ownedWrite, .controlFromOtherMaster, .subwordControl, .lockedControl, .lockBroken, .invalidEntry,
      .provingProtected, .ownAccessFailed, .ringBusy].map FaultReason.code = [1, 2, 3, 4, 5, 6, 7, 8, 9]
  ∧ [ArithStep.conversion, .flow, .concentration, .solidsRate, .integration, .summary].map ArithStep.code =
      [1, 2, 3, 4, 5, 6]
  ∧ [ProvingRun.idle, .armed, .running, .complete, .aborted].map ProvingRun.code = [0, 1, 2, 3, 4]
  ∧ [AbortReason.none, .command, .stale, .reset].map AbortReason.code = [0, 1, 2, 3]
  ∧ [DigestKind.capture, .condition, .fault, .proving, .restart].map DigestKind.code = [1, 2, 3, 4, 5]
  ∧ [StatusReason.none, .unknownCommand, .badTarget, .busy, .notOwner, .notRunning, .provingActive, .disabled,
      .reset].map StatusReason.code = [0, 1, 2, 3, 4, 5, 6, 7, 8]

/-! ### The Window Timer (Chapter 6) -/

/-- R112, R110: the count advances while the timer runs below its period, and a stopped timer stays; that a count at its
period waits for the expiry is the model's reading (log 25). At the period a marker joins, or is absorbed and counted LATE
WINDOWS when one is queued; the count becomes 0 and the loaded period is that of the next window. -/
def Obligations.TimerAdvancesAndExpires : Prop :=
  (∀ (s : State) (period : BitVec 16), s.timer.period = some period →
      (s.timer.running = true → s.timer.count.toNat < period.toNat → exec .millisecondCountAdvance s =
        .next { s with timer := { s.timer with count := s.timer.count + 1 } })
      ∧ (s.timer.running = false → exec .millisecondCountAdvance s = .next s))
  ∧ (∀ (s : State) (period : BitVec 16), s.timer.period = some period → s.timer.count = period →
      let restarted : TimerState := ⟨true, 0, some s.inEffect.period⟩
      (s.timer.running = true → WorkItem.marker ∉ s.engine.workQueue → exec .windowPeriodExpiry s =
        .next { s with
          timer := restarted
          engine := { s.engine with workQueue := s.engine.workQueue ++ [.marker] } })
      ∧ (s.timer.running = true → WorkItem.marker ∈ s.engine.workQueue → exec .windowPeriodExpiry s =
        .next { s with timer := restarted, engine := { s.engine with lateWindows := s.engine.lateWindows + 1 } })
      ∧ (s.timer.running = false → exec .windowPeriodExpiry s = .next s))

/-! ### Frame items (Chapters 4 to 7) -/

/-- The engine is free and this frame item stands at the front. -/
def FrameInFront (f : FrameItem) (rest : List WorkItem) (s : State) : Prop :=
  s.engine.job = none ∧ s.engine.workQueue = .frame f :: rest

/-- A first-lookup action captures (R81, R83): EVERY; or NEXT, with the entry loaded as a FIRST entry of the carried
generation and armed. -/
def takesFirst (s : State) (l : LookupResult) : Bool :=
  match l.action.capture with
  | .none => false
  | .every => true
  | .next =>
    (match (s.cls.entries.get l.index).entry with
      | some (.first _ _) => true
      | _ => false)
      && (s.cls.entries.get l.index).generation == l.generation && s.cls.armed.get l.index

/-- The CAPTURE record of the first lookup, and none for an item whose action does not capture (R80, R81). -/
def firstReports (f : FrameItem) (s : State) : List Report :=
  match f.lookup with
  | none => []
  | some l =>
    if takesFirst s l then [⟨.capture, firstCaptureBody f l, releaseAt s.engine.windowNumber s⟩] else []

/-- The engine need not wait with these records: the DIGEST items of those kept find room in the own-access queue (R164). -/
def RoomFor (reports : List Report) (s : State) : Prop :=
  let kept := (ringAfter s.inEffect.ringSize s.pub.digest reports).2.1
  reports = [] ∨ (s.pub.heldDigests.any (·.byEngine) = false
    ∧ (kept = [] ∨ (s.pub.heldDigests = [] ∧ s.pub.queue.length + kept.length ≤ 32)))

/-- The counter of an action is raised (R78). -/
def hitsAfter (counter : Option (Fin 32)) (hits : Vector Word 32) : Vector Word 32 :=
  match counter with
  | none => hits
  | some k => upd hits k (hits.get k + 1)

/-- The item is taken and counted processed, its first-lookup counter raised, and its capture, if any, reserved, which
disarms a NEXT entry (R78, R81, R83, R119). -/
def frameTaken (f : FrameItem) (rest : List WorkItem) (s : State) : State :=
  let begun : State := { s with engine := { s.engine with workQueue := rest, processed := s.engine.processed + 1 } }
  match f.lookup with
  | none => begun
  | some l =>
    let hits := hitsAfter l.action.counter s.cls.hits
    if takesFirst s l then
      let armed := if l.action.capture = .next then upd s.cls.armed l.index false else s.cls.armed
      reserve .engine .capture (firstCaptureBody f l) { begun with cls := { s.cls with hits := hits, armed := armed } }
    else { begun with cls := { s.cls with hits := hits } }

/-- R78, R80, R81, R83, R119, R164: an item without a match is counted UNCLASSIFIED. With a match, of whatever disposition,
an action that captures EVERY, or NEXT with its entry armed, FIRST and of the carried generation, reserves a CAPTURE record
with the fields of R80, and NEXT then disarms the entry; any other NEXT captures nothing and leaves the armed flags. A PASS
ONLY item ends there, and one for a disabled point or slot, or for a summary target of 8 to 15, is counted TO DISABLED
POINT (a four-word item with a relay disposition too, which no validated entry gives: the model's choice, log 18). While
the capture's DIGEST item waits for room, the item goes no further. The record's target form is NONE and its target 0 for
PASS ONLY and RELAY, as R60 gives such a frame no target: the model's reading (log 19); a sample without a converted value,
which no reached state has, shows a NaN (log 18). -/
def Obligations.FrameItemDispatched : Prop :=
  (∀ (s : State) (f : FrameItem) (rest : List WorkItem), FrameInFront f rest s →
      let taken := frameTaken f rest s
      let disabled : State :=
        { taken with engine := { taken.engine with toDisabledPoint := s.engine.toDisabledPoint + 1 } }
      (f.lookup = none → exec .takeFrameItem s =
        .next { taken with engine := { taken.engine with unclassified := s.engine.unclassified + 1 } })
      ∧ (RoomFor (firstReports f s) s → ∀ l, f.lookup = some l →
        (l.action.disposition = .passOnly → exec .takeFrameItem s = .next taken)
        ∧ (f.isSummary = false → l.action.disposition ≠ .passOnly → s.pointEnabled l.action.target = false →
            exec .takeFrameItem s = .next disabled)
        ∧ (f.isSummary = true → l.action.disposition = .process →
            8 ≤ l.action.target.val
              ∨ slotEnabled (s.engine.slotEntries.get (Fin.ofNat 8 l.action.target.val)).entry = false →
            exec .takeFrameItem s = .next disabled))
      ∧ (¬RoomFor (firstReports f s) s → ∃ j : Job, exec .takeFrameItem s =
          .next { taken with engine := { taken.engine with job := some j } }))
  ∧ (∀ (f : FrameItem) (l : LookupResult), f.lookup = some l →
      let target := targetOf f.isSummary f.lookup
      let role : Role := if f.isSummary then .summary else l.action.role
      let tail : List Word := if f.isSummary then
          [put f.station.toNat 0 ||| put f.upstreamPoint.toNat 8 ||| put f.hops.toNat 16, f.summaryWindow,
            narrow f.summaryVolume]
        else [f.timeStamp, narrow (f.value.getD f64NaN), 0]
      firstCaptureBody f l =
        [put l.action.capture.code 1 ||| put l.index.val 8 ||| put l.generation.toNat 16,
          put f.tag.val 0 ||| put f.window.val 3 ||| put f.kind.toNat 5 ||| put (headChannel f.head).toNat 9
            ||| put (headQuality f.head).toNat 14 ||| put (headSequence f.head).toNat 24,
          captureTargetWord target role] ++ tail)
  ∧ (∀ (s : State) (f : FrameItem) (rest : List WorkItem) (l : LookupResult), f.lookup = some l →
      let taken := frameTaken f rest s
      let entry := s.cls.entries.get l.index
      let may := (∃ key action, entry.entry = some (.first key action)) ∧ entry.generation = l.generation
        ∧ s.cls.armed.get l.index = true
      (l.action.capture = .every → (firstReports f s).length = 1 ∧ taken.cls.armed = s.cls.armed)
      ∧ (l.action.capture = .next → may →
        (firstReports f s).length = 1 ∧ taken.cls.armed = upd s.cls.armed l.index false)
      ∧ (l.action.capture = .none ∨ (l.action.capture = .next ∧ ¬may) →
        firstReports f s = [] ∧ taken.cls.armed = s.cls.armed ∧ taken.pub = s.pub ∧ taken.irq = s.irq)
      ∧ Reported (firstReports f s) s taken)

/-- The body of the FAULT record of an abandonment: source ARITHMETIC and the record's words 1 to 3 (Tables 11-13, 11-15). -/
def arithFaultBody (target : BitVec 4) (role : Role) (f : FrameItem) (step : ArithStep) (kinds : Kinds) : List Word :=
  [1, packed [(target.toNat, 0), (role.code, 4), ((headChannel f.head).toNat, 8), ((headSequence f.head).toNat, 16),
    (step.code, 24)], f.raw, kinds.setWidth 32]

/-- An abandonment of this frame item offered to the arithmetic fault record (R106), with the FAULT record's reservation kept
or lost as the ring stands (R171). What else the item reports comes behind it: at most one record more. -/
def ArithFaultOffered (target : BitVec 4) (role : Role) (f : FrameItem) (step : ArithStep) (kinds : Kinds) (s t : State) :
    Prop :=
  let d := s.pub.digest
  let body := arithFaultBody target role f step kinds
  let position := (d.oldest + d.occupied.length) % s.inEffect.ringSize
  let words := digestWords (digestHead .fault d.lost d.nextSequence) body (releaseWord s)
  let kept := d.sizePending = false ∧ d.occupied.length < s.inEffect.ringSize
  (s.arith.fault = none →
    t.arith.fault = some ⟨target, role, headChannel f.head, headSequence f.head, f.raw, step, kinds, 0⟩
    ∧ Asked arithFaultRecordNo t
    ∧ (s.inEffect.causeEnable.getLsbD 0 = true → t.irq.getLsbD 0 = true)
    ∧ (kept → (OwnItem.digest position words ∈ t.pub.queue ∨ ⟨position, words, false⟩ ∈ t.pub.heldDigests)
      ∧ ∃ more, t.pub.digest.occupied = d.occupied ++ ⟨false, d.nextSequence, d.lost⟩ :: more ∧ more.length ≤ 1)
    ∧ (¬kept → t.pub.digest.occupied = d.occupied
      ∧ ∃ more, more ≤ 1 ∧ t.pub.digestLost = s.pub.digestLost + 1 + BitVec.ofNat 32 more))
  ∧ ∀ x, s.arith.fault = some x →
    t.arith.fault = some { x with further := if x.further = 255 then 255 else x.further + 1 }
    ∧ (x.further ≠ 255 → Asked arithFaultRecordNo t) ∧ t.irq.getLsbD 0 = s.irq.getLsbD 0

/-- A summary in front with this disposition; the capture of its first lookup, if any, finds room. -/
def SummaryInFront (f : FrameItem) (rest : List WorkItem) (l : LookupResult) (disposition : Disposition) (s : State) :
    Prop :=
  FrameInFront f rest s ∧ f.isSummary = true ∧ f.lookup = some l ∧ l.action.disposition = disposition
    ∧ RoomFor (firstReports f s) s

/-- The proposed volume and solids of remote slot `x` and the kinds of the SUMMARY step (R100). -/
def summarySums (x : RemoteSlot) (f : FrameItem) : F64 × F64 × Kinds :=
  let v := fAdd (held64 x.volume) (held64 f.summaryVolume)
  let m := fAdd (held64 x.solids) (held32 f.summarySolids)
  (v.value, m.value, v.kinds ||| m.kinds)

/-- Remote slot `x` after an intake without a potent kind (R134, R105, R137): a NaN sum marks it, any other adds. -/
def slotAfter (e : SlotEntry) (f : FrameItem) (x : RemoteSlot) : RemoteSlot :=
  let sums := summarySums x f
  if f64IsNaN sums.1 = true ∨ f64IsNaN sums.2.1 = true then { x with allComplete := false }
  else
    { x with
      volume := sums.1
      solids := sums.2.1
      count := x.count + 1
      allComplete := x.allComplete && f.complete
      mismatch := x.mismatch || f.station != e.expectedStation }

/-- The words of a relayed summary (R136): as received, with the hop count in bits 8-10 of word 2 raised by 1 and the check
word recomputed. -/
def relayedWords (w : List Word) : List Word :=
  let words : List Word := [wordAt w 0, wordAt w 1, wordAt w 2 + 0x100#32, wordAt w 3, wordAt w 4, wordAt w 5, wordAt w 6]
  words ++ [~~~(words.foldl (· + ·) 0)]

/-- R133, R134, R100, R105, R106, R136, R137, R176: a PROCESS summary for an enabled slot, whose sums raise no potent kind,
is added, its mismatch and completeness gathered, or marks the slot when a sum is NaN; a potent kind marks the slot and is
offered to the arithmetic fault record. A RELAY summary below the hop limit joins the outbound ring, with its hop count
raised and its check word recomputed, and is counted RELAYED; at the limit it is counted RELAY DROPPED. A PROCESS AND RELAY
summary is taken in, or counted TO DISABLED POINT, and then relayed or dropped, whatever its intake gave. Each of them
comes behind the capture of the first lookup, as FrameItemDispatched gives it (R81). -/
def Obligations.SummaryAddedOrRelayed : Prop :=
  (∀ (s : State) (f : FrameItem) (rest : List WorkItem) (l : LookupResult) (r : Fin 8) (e : SlotEntry),
      SummaryInFront f rest l .process s → l.action.target.val = r.val →
      (s.engine.slotEntries.get r).entry = some e → e.enable = true →
      let x := s.engine.slots.get r
      let kinds := (summarySums x f).2.2
      let taken := frameTaken f rest s
      let withSlot (y : RemoteSlot) : State :=
        { taken with engine := { taken.engine with slots := upd s.engine.slots r y } }
      (kinds &&& s.inEffect.potency = 0 → exec .takeFrameItem s = .next (withSlot (slotAfter e f x)))
      ∧ (kinds &&& s.inEffect.potency ≠ 0 →
        ∃ t, exec .takeFrameItem s = .next t
          ∧ ReportsFrom { withSlot { x with allComplete := false } with arith := { s.arith with fault := t.arith.fault } } t
          ∧ ArithFaultOffered (BitVec.ofNat 4 r.val) .summary f .summary kinds taken t))
  ∧ (∀ (s : State) (f : FrameItem) (rest : List WorkItem) (l : LookupResult), SummaryInFront f rest l .relay s →
      let taken := frameTaken f rest s
      (s.inEffect.hopLimit.toNat ≤ f.hops.toNat → exec .takeFrameItem s =
        .next { taken with balance := { s.balance with relayDropped := s.balance.relayDropped + 1 } })
      ∧ (f.hops.toNat < s.inEffect.hopLimit.toNat → hasRoom taken = true → taken.pub.heldDigests.any (·.byEngine) = false →
        exec .takeFrameItem s = .next (joinQueue (.outbound s.pub.outboundIndex (relayedWords f.received))
          { taken with
            pub := { taken.pub with outboundIndex := s.pub.outboundIndex + 1 }
            balance := { s.balance with relayed := s.balance.relayed + 1 } })))
  ∧ (∀ (s : State) (f : FrameItem) (rest : List WorkItem) (l : LookupResult),
      SummaryInFront f rest l .processAndRelay s →
      let taken := frameTaken f rest s
      let disabled : Prop := 8 ≤ l.action.target.val
        ∨ slotEnabled (s.engine.slotEntries.get (Fin.ofNat 8 l.action.target.val)).entry = false
      let relayed (engine : EngineState) : Prop :=
        (s.inEffect.hopLimit.toNat ≤ f.hops.toNat → exec .takeFrameItem s =
          .next { taken with
            engine := engine
            balance := { s.balance with relayDropped := s.balance.relayDropped + 1 } })
        ∧ (f.hops.toNat < s.inEffect.hopLimit.toNat → hasRoom taken = true → taken.pub.heldDigests.any (·.byEngine) = false →
          exec .takeFrameItem s = .next (joinQueue (.outbound s.pub.outboundIndex (relayedWords f.received))
            { taken with
              engine := engine
              pub := { taken.pub with outboundIndex := s.pub.outboundIndex + 1 }
              balance := { s.balance with relayed := s.balance.relayed + 1 } }))
      (disabled → relayed { taken.engine with toDisabledPoint := s.engine.toDisabledPoint + 1 })
      ∧ ∀ (r : Fin 8) (e : SlotEntry), l.action.target.val = r.val → (s.engine.slotEntries.get r).entry = some e →
        e.enable = true →
        let x := s.engine.slots.get r
        let kinds := (summarySums x f).2.2
        (kinds &&& s.inEffect.potency = 0 →
          relayed { taken.engine with slots := upd s.engine.slots r (slotAfter e f x) })
        ∧ (kinds &&& s.inEffect.potency ≠ 0 → ∃ t, exec .takeFrameItem s = .next t
          ∧ ReportsFrom { taken with
              engine := { taken.engine with slots := upd s.engine.slots r { x with allComplete := false } }
              arith := { s.arith with fault := t.arith.fault }
              balance := t.balance } t
          ∧ ArithFaultOffered (BitVec.ofNat 4 r.val) .summary f .summary kinds taken t
          ∧ (s.inEffect.hopLimit.toNat ≤ f.hops.toNat →
            t.balance = { s.balance with relayDropped := s.balance.relayDropped + 1 })
          ∧ (f.hops.toNat < s.inEffect.hopLimit.toNat → taken.pub.queue.length ≤ 29 →
            taken.pub.heldDigests.any (·.byEngine) = false →
            t.balance = { s.balance with relayed := s.balance.relayed + 1 } ∧ t.engine.job = none
              ∧ OwnItem.outbound s.pub.outboundIndex (relayedWords f.received) ∈ t.pub.queue
              ∧ t.pub.outboundIndex = s.pub.outboundIndex + 1)))

/-- A four-word sample in front for an enabled point; the capture of its first lookup, if any, finds room. -/
def SampleInFront (f : FrameItem) (rest : List WorkItem) (l : LookupResult) (e : PointEntry) (s : State) : Prop :=
  FrameInFront f rest s ∧ f.isSummary = false ∧ f.lookup = some l ∧ l.action.disposition = .process
    ∧ RoomFor (firstReports f s) s ∧ (s.engine.pointEntries.get l.action.target).entry = some e ∧ e.enable = true

/-- Behind these records, a change of point `p`'s conditions or HOLD is reserved with these origins; once nothing is in hand,
its cause is set and its publication asked for (R118). -/
def PointReported (earlier : List Report) (p : Fin 16) (o : Origins) (old new : PointRecord) (s t : State) : Prop :=
  Reported (earlier ++ pointReports p o s.engine.windowNumber (releaseAt s.engine.windowNumber s) old new) s t
    ∧ (t.engine.job = none → old.conditions ≠ new.conditions ∨ old.hold ≠ new.hold →
      Asked (pointRecordNo p) t ∧ (s.inEffect.causeEnable.getLsbD 1 = true → t.irq.getLsbD 1 = true))

/-- The window of the record is marked (R116). -/
def markedWindow (w : PointWindow) : PointWindow := { w with volumeComplete := false, solidsComplete := false }

/-- The concentration of a density (R96): the value, whether it was clamped, and the kinds. -/
def concentrationOf (e : PointEntry) (density : F64) : F64 × Bool × Kinds :=
  let above := fSub (held64 density) (held32 e.water)
  let span := fSub (held32 e.solids) (held32 e.water)
  let q := fDiv (held64 above.value) (held64 span.value)
  let kinds := above.kinds ||| span.kinds ||| q.kinds
  if fLt f64One q.value then (f64One, true, kinds)
  else if fLt q.value 0 then (0, true, kinds)
  else (q.value, false, kinds)

/-- The sticky flags of a sample: its kinds, and CV CLAMPED. -/
def stickyOf (kinds : Kinds) (clamped : Bool) : BitVec 8 := kinds.setWidth 8 ||| (if clamped then stickyCvClamped else 0)

/-- R65, R67: a FIRST key matches a head. -/
def firstMatches (k : FirstKey) (h : HeadKey) : Prop :=
  agrees k.tagValue k.tagMask (BitVec.ofNat 3 h.tag.val)
    ∧ agrees k.windowValue k.windowMask (BitVec.ofNat 2 h.window.val)
    ∧ agrees k.channelValue k.channelMask (h.head.extractLsb' 4 5)
    ∧ agrees k.kindValue k.kindMask (h.head.extractLsb' 0 4)
    ∧ agrees k.qualityValue k.qualityMask (h.head.extractLsb' 24 4)

/-- R65, R72, R73: a SECOND key matches a sample; member i of the band thermometer is present when the band is at least
i. -/
def secondMatches (k : SecondKey) (x : SampleKey) : Prop :=
  agrees k.pointValue k.pointMask (BitVec.ofNat 4 x.point.val)
    ∧ agrees k.roleValue k.roleMask (match x.role with | .velocity => 0#2 | .density => 1#2 | .pressure => 2#2 | .summary => 3#2)
    ∧ agrees k.rangeValue k.rangeMask x.range
    ∧ (∀ i, 1 ≤ i → i ≤ 7 → k.bandMask.getLsbD (i - 1) = true → k.bandValue.getLsbD (i - 1) = decide (i ≤ x.band))
    ∧ (k.availableMask = 1#1 → k.availableValue = BitVec.ofBool x.available)
    ∧ agrees k.conditionValue k.conditionMask x.conditions
    ∧ agrees k.qualityValue k.qualityMask x.quality

/-- R64 to R67, R70 to R73, Table 4-5: each lookup answers the LOADED entry of its own lookup of lowest index whose key
matches, with its generation and action, or no match; the key of a second lookup has the range mask, band, condition set
and quality set as they stand; which quantities a sample of each role has; and the target a lookup gives a frame, where a
summary's target of 8 to 15 names no remote slot (R60, R68). -/
def Obligations.LookupsMade : Prop :=
  (∀ (s : State) (h : HeadKey), let entry (i : Fin 64) := s.cls.entries.get i
    (∀ i key action, (entry i).entry = some (.first key action) → firstMatches key h →
      (∀ j k a, j < i → (entry j).entry = some (.first k a) → ¬firstMatches k h) →
      firstLookup s h = some ⟨i, (entry i).generation, action⟩)
    ∧ ((∀ i key action, (entry i).entry = some (.first key action) → ¬firstMatches key h) → firstLookup s h = none))
  ∧ (∀ (s : State) (x : SampleKey), let entry (i : Fin 64) := s.cls.entries.get i
    (∀ i key action, (entry i).entry = some (.second key action) → secondMatches key x →
      (∀ j k a, j < i → (entry j).entry = some (.second k a) → ¬secondMatches k x) →
      secondLookup s x = some ⟨i, (entry i).generation, action⟩)
    ∧ ((∀ i key action, (entry i).entry = some (.second key action) → ¬secondMatches key x) → secondLookup s x = none))
  ∧ (∀ (s : State) (p : Fin 16) (item : FrameItem) (q : Quantities), let key := sampleKey s p item q
    key.point = p ∧ key.role = q.role ∧ key.conditions = (s.engine.points.get p).conditions
      ∧ key.quality = (wordAt item.received 0).extractLsb' 24 4
      ∧ (∀ i : Fin 8, key.range.getLsbD i.val = true ↔ ∃ c x, (s.cls.checkers.get i).entry = some c
          ∧ q.get c.quantity = some x ∧ fLe (widen c.low) x = true ∧ fLe x (widen c.high) = true)
      ∧ (key.available = true ↔ ∃ cv, q.concentration = some cv ∧ f64IsNaN cv = false)
      ∧ (∀ b cv, s.cls.band.entry = some b → q.concentration = some cv → f64IsNaN cv = false →
          key.band = b.thresholds.toList.countP (fun x => fLe (widen x) cv))
      ∧ (s.cls.band.entry = none ∨ (∀ cv, q.concentration = some cv → f64IsNaN cv = true) → key.band = 0))
  ∧ (∀ (e : PointEntry) (r : PointRecord) (v : F64) (time : Word),
      let flow := (fMul (held32 e.area) (held64 v)).value
      let rate (cv : F64) : F64 := (fMul (held64 (fMul (held64 flow) (held64 cv)).value) (held32 e.solids)).value
      let fresh := r.densityPresent = true ∧ (time - r.densityTime).toNat ≤ e.pairingLimit.toNat
      let has (role : Role) (velocity density concentration rates pressure : Option F64) (flows : Option F64) : Prop :=
        let q := (deriveSample role e r v time).quantities
        q.role = role ∧ q.get .roleValue = some v ∧ q.get .velocity = velocity ∧ q.get .density = density
          ∧ q.get .concentration = concentration ∧ q.get .flowRate = flows ∧ q.get .solidsRate = rates
          ∧ q.get .pressure = pressure
      (fresh → has .velocity (some v) (some r.density) (some (concentrationOf e r.density).1)
        (some (rate (concentrationOf e r.density).1)) none (some flow))
      ∧ (¬fresh → has .velocity (some v) none none none none (some flow))
      ∧ has .density none (some v) (some (concentrationOf e v).1) none none none
      ∧ has .pressure none none none none (some v) none)
  ∧ (∀ (summary : Bool) (l : LookupResult), targetOf summary none = .none
      ∧ (l.action.disposition = .passOnly ∨ l.action.disposition = .relay → targetOf summary (some l) = .none)
      ∧ (l.action.disposition = .process ∨ l.action.disposition = .processAndRelay →
        targetOf false (some l) = .point l.action.target
        ∧ (∀ r : Fin 8, l.action.target.val = r.val → targetOf true (some l) = .slot r)
        ∧ (8 ≤ l.action.target.val → targetOf true (some l) = .none)))

/-- The velocity of a sample is stored (R123). -/
def velocityStored (f : FrameItem) (v : F64) (r : PointRecord) : PointRecord :=
  { r with
    velocity := v
    velocityTime := f.timeStamp
    baseFlag := true
    sampleCount := r.sampleCount + 1
    window := { r.window with samples := r.window.samples + 1, velocitySeen := true }
    silentWindows := 0
    conditions := r.conditions &&& ~~~condStale }

/-- The latest density is fresh for this sample (R120). -/
abbrev isFresh (e : PointEntry) (f : FrameItem) (r : PointRecord) : Prop :=
  r.densityPresent = true ∧ (f.timeStamp - r.densityTime).toNat ≤ e.pairingLimit.toNat

/-- ΔV of R98 with the kinds of its operations. -/
def volumeIncrement (e : PointEntry) (v previous : F64) (dt : Word) : F64 × Kinds :=
  let sum := fAdd (held64 v) (held64 previous)
  let mean := fMul (held64 sum.value) (held64 f64Half)
  let flow := fMul (held32 e.area) (held64 mean.value)
  let scaled := fMul (held64 flow.value) (intOperand dt.toNat)
  let volume := fDiv (held64 scaled.value) (held64 f64Thousand)
  (volume.value, sum.kinds ||| mean.kinds ||| flow.kinds ||| scaled.kinds ||| volume.kinds)

/-- The kinds that the steps before the first check raise, and whether the concentration was clamped (R95 to R97, R120). -/
structure FirstSteps where
  flow : Kinds
  concentration : Kinds
  solidsRate : Kinds
  clamped : Bool
deriving DecidableEq, Repr

def firstSteps (f : FrameItem) (role : Role) (e : PointEntry) (r : PointRecord) (v : F64) : FirstSteps :=
  match role with
  | .velocity =>
    let q := fMul (held32 e.area) (held64 v)
    if isFresh e f r then
      let cv := concentrationOf e r.density
      let carry := fMul (held64 q.value) (held64 cv.1)
      let rate := fMul (held64 carry.value) (held32 e.solids)
      ⟨q.kinds, cv.2.2, carry.kinds ||| rate.kinds, cv.2.1⟩
    else ⟨q.kinds, 0, 0, false⟩
  | .density =>
    let cv := concentrationOf e v
    ⟨0, cv.2.2, 0, cv.2.1⟩
  | .pressure | .summary => ⟨0, 0, 0, false⟩

def FirstSteps.kinds (x : FirstSteps) (carried : Kinds) : Kinds := carried ||| x.flow ||| x.concentration ||| x.solidsRate

/-- The sticky flags of a point after the first check of a sample that passes it (R102, R96). -/
def stickyAfter (f : FrameItem) (role : Role) (e : PointEntry) (r : PointRecord) (v : F64) : BitVec 8 :=
  let x := firstSteps f role e r v
  r.sticky ||| stickyOf (x.kinds f.carried) x.clamped

/-- What the second lookup of this sample answers (R121), with the key of LookupsMade. -/
def secondKey (f : FrameItem) (l : LookupResult) (e : PointEntry) (v : F64) (s : State) : SampleKey :=
  let p := l.action.target
  sampleKey s p f (deriveSample l.action.role e (s.engine.points.get p) v f.timeStamp).quantities

def secondOf (f : FrameItem) (l : LookupResult) (e : PointEntry) (v : F64) (s : State) : Option SecondResult :=
  secondLookup s (secondKey f l e v s)

/-- A second-lookup action captures (R81, R83): EVERY, or NEXT with the entry armed. -/
def takesSecond (s : State) (r : SecondResult) : Bool :=
  match r.action.capture with
  | .none => false
  | .every => true
  | .next => s.cls.armed.get r.index

def secondBody (f : FrameItem) (l : LookupResult) (e : PointEntry) (v : F64) (r : SecondResult) (s : State) : List Word :=
  secondCaptureBody f (secondKey f l e v s) r.index r.generation r.action.capture

/-- The CAPTURE records of both lookups of a sample. -/
def sampleReports (f : FrameItem) (l : LookupResult) (e : PointEntry) (v : F64) (s : State) : List Report :=
  firstReports f s ++ match secondOf f l e v s with
    | none => []
    | some r =>
      if takesSecond s r then [⟨.capture, secondBody f l e v r s, releaseAt s.engine.windowNumber s⟩] else []

/-- The sample is taken, and the counter and the capture of its second lookup have acted (R76, R78, R83, R121). -/
def lookedUp (f : FrameItem) (rest : List WorkItem) (l : LookupResult) (e : PointEntry) (v : F64) (s : State) : State :=
  let taken := frameTaken f rest s
  match secondOf f l e v s with
  | none => taken
  | some r =>
    let hits := hitsAfter r.action.counter taken.cls.hits
    if takesSecond s r then
      let armed := if r.action.capture = .next then upd taken.cls.armed r.index false else taken.cls.armed
      reserve .engine .capture (secondBody f l e v r s) { taken with cls := { taken.cls with hits := hits, armed := armed } }
    else { taken with cls := { taken.cls with hits := hits } }

/-- The point's record after the condition mode of a match, as ConditionModeApplied gives it; without a match, as it was
(R75, R117). -/
def modeApplied (r : Option SecondResult) (x : PointRecord) : PointRecord :=
  match r with
  | none => x
  | some r => applyMode r.action.mode r.action.operand x

/-- The origins of a point's change over a sample: the entry that matched for a lookup condition or HOLD, the engine for
STALE or ARITH (R118; log 20). -/
def sampleOrigins (r : Option SecondResult) (old new : PointRecord) : Origins :=
  let changed := old.conditions ^^^ new.conditions
  { Origins.none with
    lookup := if changed &&& lookupConditions ≠ 0 ∨ old.hold ≠ new.hold then r.map (·.index) else none
    engine := decide (changed &&& ~~~lookupConditions ≠ 0) }

/-- A match whose action has match interrupt sets MATCH (R76). -/
def MatchReported (r : Option SecondResult) (s t : State) : Prop :=
  ∀ x, r = some x → x.action.matchInterrupt = true → s.inEffect.causeEnable.getLsbD 2 = true → t.irq.getLsbD 2 = true

/-- The sample in front comes to its second lookup: no kind of the first check is potent (R102). -/
def ComesToLookup (f : FrameItem) (rest : List WorkItem) (l : LookupResult) (e : PointEntry) (v : F64) (s : State) : Prop :=
  SampleInFront f rest l e s ∧ f.value = some v
    ∧ (firstSteps f l.action.role e (s.engine.points.get l.action.target) v).kinds f.carried &&& s.inEffect.potency = 0

/-- The sample of this role comes to accumulation: its second lookup has no match, or a match with accumulate YES, and the
captures of both lookups, if any, find room (R75, R122). -/
def Accumulates (f : FrameItem) (rest : List WorkItem) (l : LookupResult) (e : PointEntry) (role : Role) (v : F64)
    (s : State) : Prop :=
  ComesToLookup f rest l e v s ∧ l.action.role = role ∧ RoomFor (sampleReports f l e v s) s
    ∧ ∀ r, secondOf f l e v s = some r → r.action.accumulate = true

/-- TAKE_FRAME_ITEM takes this sample, both lookups act, and its point is left with this record and the run with this state:
a change of conditions or HOLD is reported behind the captures, and nothing else happens but reports. -/
def LeavesRecord (f : FrameItem) (rest : List WorkItem) (l : LookupResult) (e : PointEntry) (v : F64) (new : PointRecord)
    (proving : ProvingState) (s : State) : Prop :=
  let p := l.action.target
  let old := s.engine.points.get p
  let r := secondOf f l e v s
  let looked := lookedUp f rest l e v s
  ∃ t, exec .takeFrameItem s = .next t
    ∧ ReportsFrom { looked with
        engine := { looked.engine with points := upd s.engine.points p new }
        proving := proving } t
    ∧ MatchReported r s t
    ∧ PointReported (sampleReports f l e v s) p (sampleOrigins r old new) old new s t

/-- The point of this run is fed (R155). -/
abbrev isFed (run : ProvingState) (p : Fin 16) : Prop := run.run = .running ∧ (p = run.test ∨ p = run.reference)

/-- The sums an increment proposes (R98): of the point's totals, its window, and the proving volume it feeds; the kinds of
the INTEGRATION step, and the quantities tested for NaN (R105). -/
structure Sums where
  volumeTotal : F64
  windowVolume : F64
  solidsTotal : F64
  windowSolids : F64
  fed : F64
  kinds : Kinds
  tested : List F64
deriving DecidableEq, Repr

/-- The step of this velocity at point `p`: the solids are added with a fresh density alone, the proving volume for a point
of a RUNNING run alone; the others stay. -/
def sumsOf (f : FrameItem) (e : PointEntry) (v : F64) (r : PointRecord) (run : ProvingState) (p : Fin 16) : Sums :=
  let volume := volumeIncrement e v r.velocity (f.timeStamp - r.velocityTime)
  let total := fAdd (held64 r.volumeTotal) (held64 volume.1)
  let window := fAdd (held64 r.window.volume) (held64 volume.1)
  let part := fMul (held64 volume.1) (held64 (concentrationOf e r.density).1)
  let solids := fMul (held64 part.value) (held32 e.solids)
  let solidsTotal := fAdd (held64 r.solidsTotal) (held64 solids.value)
  let windowSolids := fAdd (held64 r.window.solids) (held64 solids.value)
  let fed := fAdd (held64 (if p = run.test then run.testVolume else run.referenceVolume)) (held64 volume.1)
  let ofSolids : Kinds := part.kinds ||| solids.kinds ||| solidsTotal.kinds ||| windowSolids.kinds
  { volumeTotal := total.value
    windowVolume := window.value
    solidsTotal := if isFresh e f r then solidsTotal.value else r.solidsTotal
    windowSolids := if isFresh e f r then windowSolids.value else r.window.solids
    fed := fed.value
    kinds := volume.2 ||| total.kinds ||| window.kinds ||| (if isFresh e f r then ofSolids else 0)
      ||| (if isFed run p then fed.kinds else 0)
    tested := [volume.1, total.value, window.value]
      ++ (if isFresh e f r then [solids.value, solidsTotal.value, windowSolids.value] else [])
      ++ (if isFed run p then [fed.value] else []) }

/-- The run after its point took an increment (R155). -/
def runFed (x : Sums) (run : ProvingState) (p : Fin 16) : ProvingState :=
  if isFed run p then
    if p = run.test then { run with testVolume := x.fed, testCount := run.testCount + 1 }
    else { run with referenceVolume := x.fed, referenceCount := run.referenceCount + 1 }
  else run

/-- R75, R76, R80, R96 to R98, R102, R105, R120 to R124, R155: a VELOCITY sample with no potent kind, no second match or one
with accumulate YES, and a value that is a number becomes the point's base when it finds none, stored and counted with no
increment; within the gap limit of its base it adds its increment, the area times the mean of the two velocities times the
milliseconds, over 1 000, to the totals and the window, with a fresh density its solids as well, and at a point of a
RUNNING run to the proving volume; a NaN among these skips it. At a time gap it is stored without increment and its window
marked; a NaN skips accumulation. A DENSITY sample stores itself with its concentration's flags, a PRESSURE sample itself.
A match with accumulate NO excludes the sample, which is counted. The counter, capture, condition mode and match interrupt
of any match act before; while the DIGEST item of its capture waits for room, the sample goes no further. A change of the
point's conditions or HOLD is reported at the item's end (R118): by the engine for STALE, by the entry that matched for the
others; these two origins are the model's reading (log 20). -/
def Obligations.VelocitySampleAccumulated : Prop :=
  (∀ (s : State) (f : FrameItem) (rest : List WorkItem) (l : LookupResult) (e : PointEntry) (v : F64),
      Accumulates f rest l e .velocity v s →
      let p := l.action.target
      let old := s.engine.points.get p
      let seen := modeApplied (secondOf f l e v s) old
      let dt := f.timeStamp - old.velocityTime
      let sticky := stickyAfter f .velocity e old v
      let stored := velocityStored f v seen
      let leaves (new : PointRecord) (run : ProvingState) : Prop := LeavesRecord f rest l e v new run s
      (f64IsNaN v = true →
        leaves { seen with window := markedWindow seen.window, sticky := sticky ||| stickyNanSkipped } s.proving)
      ∧ (f64IsNaN v = false → old.baseFlag = false → leaves { stored with sticky := sticky } s.proving)
      ∧ (f64IsNaN v = false → old.baseFlag = true → dt = 0 ∨ e.gapLimit.toNat < dt.toNat →
        leaves { stored with window := markedWindow stored.window, sticky := sticky ||| stickyTimeGap } s.proving)
      ∧ (f64IsNaN v = false → old.baseFlag = true → dt ≠ 0 → dt.toNat ≤ e.gapLimit.toNat →
        let x := sumsOf f e v old s.proving p
        x.kinds &&& s.inEffect.potency = 0 →
        let flags := sticky ||| x.kinds.setWidth 8
        ((∀ y ∈ x.tested, f64IsNaN y = false) → leaves
          { stored with
            volumeTotal := x.volumeTotal
            solidsTotal := x.solidsTotal
            window := { stored.window with
              volume := x.windowVolume
              solids := x.windowSolids
              solidsComplete := stored.window.solidsComplete && decide (isFresh e f old) }
            sticky := flags }
          (runFed x s.proving p))
        ∧ ((∃ y ∈ x.tested, f64IsNaN y = true) → leaves
          { seen with window := markedWindow seen.window, sticky := flags ||| stickyNanSkipped } s.proving)))
  ∧ (∀ (s : State) (f : FrameItem) (rest : List WorkItem) (l : LookupResult) (e : PointEntry) (v : F64),
      let p := l.action.target
      let old := s.engine.points.get p
      let seen := modeApplied (secondOf f l e v s) old
      let sticky := stickyAfter f l.action.role e old v
      let counted : PointRecord :=
        { seen with
          sampleCount := old.sampleCount + 1
          window := { seen.window with samples := old.window.samples + 1 }
          sticky := sticky }
      let skipped : PointRecord :=
        { seen with window := markedWindow seen.window, sticky := sticky ||| stickyNanSkipped }
      let leaves (new : PointRecord) : Prop := LeavesRecord f rest l e v new s.proving s
      (Accumulates f rest l e .density v s →
        let noNumber := f64IsNaN v = true ∨ f64IsNaN (concentrationOf e v).1 = true
        (¬noNumber → leaves { counted with density := v, densityTime := f.timeStamp, densityPresent := true })
        ∧ (noNumber → leaves skipped))
      ∧ (Accumulates f rest l e .pressure v s →
        (f64IsNaN v = false → leaves { counted with pressure := v }) ∧ (f64IsNaN v = true → leaves skipped))
      ∧ (∀ r, ComesToLookup f rest l e v s → RoomFor (sampleReports f l e v s) s → secondOf f l e v s = some r →
        r.action.accumulate = false →
        leaves { seen with window := { seen.window with excluded := old.window.excluded + 1 }, sticky := sticky })
      ∧ (ComesToLookup f rest l e v s → ¬RoomFor (sampleReports f l e v s) s →
        let looked := lookedUp f rest l e v s
        ∃ j : Job, exec .takeFrameItem s = .next { looked with engine := { looked.engine with
          points := upd s.engine.points p { old with sticky := sticky }
          job := some j } }))

/-- The sample is abandoned at this step, in the state its lookups left, behind the records they reserved: its point is left
with this record, its window incomplete and ARITH raised, no total or latest value changed; the abandonment is offered to
the arithmetic fault record (R104, R106), which sets FAULT, reserves a FAULT record and asks for a publication when it
fills an EMPTY record; a change of conditions or HOLD is reported behind it (R118). -/
def AbandonedAt (f : FrameItem) (l : LookupResult) (step : ArithStep) (kinds : Kinds) (looked : State)
    (earlier : List Report) (r : Option SecondResult) (sticky : BitVec 8) (s : State) : Prop :=
  let p := l.action.target
  let old := s.engine.points.get p
  let seen := modeApplied r old
  let new : PointRecord :=
    { seen with
      window := markedWindow seen.window
      conditions := seen.conditions ||| condArith
      sticky := sticky }
  let fault : Report :=
    ⟨.fault, arithFaultBody (BitVec.ofNat 4 p.val) l.action.role f step kinds, releaseAt s.engine.windowNumber s⟩
  ∃ t, exec .takeFrameItem s = .next t
    ∧ ReportsFrom { looked with
        engine := { looked.engine with points := upd s.engine.points p new }
        arith := { s.arith with fault := t.arith.fault } } t
    ∧ ArithFaultOffered (BitVec.ofNat 4 p.val) l.action.role f step kinds looked t
    ∧ MatchReported r s t
    ∧ PointReported (earlier ++ if s.arith.fault = none then [fault] else []) p (sampleOrigins r old new) old new s t

/-- R90, R98, R102, R104, R106, R155: a sample with a potent kind at the first check is abandoned at the earliest step that
raised one, CONVERSION, FLOW, CONCENTRATION or SOLIDS RATE, its sticky flags as they were and its second lookup not made; a
velocity whose INTEGRATION step raises a potent kind, that of its solids and of the proving volume it feeds too, is
abandoned there, after the flags of the first check, what its second lookup did standing, and no proving volume fed. The
two origins of a condition change are the model's reading (log 20); a sample without a converted value, which no reached
state has, is read as one of NaN by its choice (log 18). -/
def Obligations.PotentSampleAbandoned : Prop :=
  (∀ (s : State) (f : FrameItem) (rest : List WorkItem) (l : LookupResult) (e : PointEntry),
      SampleInFront f rest l e s →
      let old := s.engine.points.get l.action.target
      let d := firstSteps f l.action.role e old (f.value.getD f64NaN)
      let potent (k : Kinds) : Prop := k &&& s.inEffect.potency ≠ 0
      let at_ (step : ArithStep) : Prop :=
        AbandonedAt f l step (d.kinds f.carried) (frameTaken f rest s) (firstReports f s) none old.sticky s
      (potent f.carried → at_ .conversion)
      ∧ (¬potent f.carried → potent d.flow → at_ .flow)
      ∧ (¬potent f.carried → ¬potent d.flow → potent d.concentration → at_ .concentration)
      ∧ (¬potent f.carried → ¬potent d.flow → ¬potent d.concentration → potent d.solidsRate → at_ .solidsRate))
  ∧ (∀ (s : State) (f : FrameItem) (rest : List WorkItem) (l : LookupResult) (e : PointEntry) (v : F64),
      Accumulates f rest l e .velocity v s → f64IsNaN v = false →
      let p := l.action.target
      let old := s.engine.points.get p
      let dt := f.timeStamp - old.velocityTime
      old.baseFlag = true → dt ≠ 0 → dt.toNat ≤ e.gapLimit.toNat →
      let x := sumsOf f e v old s.proving p
      x.kinds &&& s.inEffect.potency ≠ 0 →
      AbandonedAt f l .integration x.kinds (lookedUp f rest l e v s) (sampleReports f l e v s) (secondOf f l e v s)
        (stickyAfter f .velocity e old v) s)

/-! ### Window close (Chapters 6 to 8) -/

/-- The amount a point hands over in this basis at the close (R127, R142): absent and incomplete when it is disabled. -/
def pointHanded (s t : State) (basis : Basis) (p : Fin 16) : Amount :=
  let w := (t.engine.points.get p).closed
  if s.pointEnabled p = true then
    match basis with
    | .volume => ⟨w.volume, w.volumeComplete⟩
    | .solids => ⟨w.solids, w.solidsComplete⟩
  else ⟨0, false⟩

/-- The amount a source hands over at the close (R142). -/
def sourceHanded (s t : State) (basis : Basis) (source : Source) : Amount :=
  match source with
  | .point p => pointHanded s t basis p
  | .slot r =>
    let x := t.engine.slots.get r
    if slotEnabled (s.engine.slotEntries.get r).entry = true then
      match basis with
      | .volume => ⟨x.closedVolume, x.closedComplete⟩
      | .solids => ⟨x.closedSolids, x.closedComplete⟩
    else ⟨0, false⟩

/-- The outbound summary of point `p` (R135): its words 0 to 6 and their check word. -/
def summaryWords (station : BitVec 5) (p : Fin 16) (w : ClosedWindow) : List Word :=
  let words : List Word :=
    [put 8 0 ||| put p.val 4 ||| put (w.number.toNat % 256) 16, station.setWidth 32,
      put p.val 0 ||| putBit (w.volumeComplete && w.solidsComplete) 16, w.number, w.volume.extractLsb' 32 32,
      w.volume.extractLsb' 0 32, narrow w.solids]
  words ++ [~~~(words.foldl (· + ·) 0)]

def isOutbound (it : OwnItem) : Bool :=
  match it with
  | .outbound _ _ => true
  | .publish _ _ | .digest _ _ | .status _ _ | .fetch _ => false

/-- R142, R143: the inflow item is appended, the oldest compared once more than L are held, the ring and S follow. -/
def segmentCompared (e : SegmentEntry) (closing : Word) (inflow outflow : Amount) (g t : Segment) : Prop :=
  let item : LagItem := ⟨closing, inflow.value, inflow.complete⟩
  (g.lag.length < e.lag → t.lag = g.lag ++ [item] ∧ t.ring = g.ring ∧ t.sum = g.sum ∧ t.lastWindow = g.lastWindow
      ∧ t.lastDifference = g.lastDifference)
  ∧ (∀ oldest more, e.lag ≤ g.lag.length → g.lag ++ [item] = oldest :: more →
      let d := (fSub (held64 oldest.amount) (held64 outflow.value)).value
      let result : Difference :=
        if oldest.complete = true ∧ outflow.complete = true ∧ f64IsNaN d = false ∧ f64IsInf d = false then .value d
        else .gap
      let ring := g.ring ++ [result]
      t.lag = more ∧ t.lastWindow = some closing ∧ t.lastDifference = some result
      ∧ t.ring = (if e.span < ring.length then ring.tail else ring)
      ∧ t.sum = t.ring.foldl (fun acc x =>
          match x with
          | .value y => (fAdd (held64 acc) (held64 y)).value
          | .gap => acc) 0)
  ∧ t.state = (if t.ring.length < e.span then .filling else .watching)
  ∧ (t.conditions &&& segGap ≠ 0 ↔ Difference.gap ∈ t.ring)

/-- R144, R145: the decision on LOSS and GAIN and their clearing, while WATCHING with no GAP. -/
def segmentDecided (e : SegmentEntry) (g t : Segment) : Prop :=
  let T := widen e.threshold
  let K := e.persistence
  let decision := t.state = .watching ∧ Difference.gap ∉ t.ring
  let both := segLoss ||| segGain
  let loss := if fLt T t.sum = true then min (g.loss + 1) K else 0
  let gain := if fLt T t.sum = false ∧ fLt t.sum (f64Negate T) = true then min (g.gain + 1) K else 0
  let raisesLoss := fLt T t.sum = true ∧ loss = K ∧ g.conditions &&& segLoss = 0
  let raisesGain := fLt T t.sum = false ∧ fLt t.sum (f64Negate T) = true ∧ gain = K ∧ g.conditions &&& segGain = 0
  let held : BitVec 3 :=
    if raisesLoss then segLoss else if raisesGain then segGain else g.conditions &&& both
  let clear := if raisesLoss ∨ raisesGain then 0 else g.clear
  let small := fLt (f64Abs t.sum) (widen e.clearLevel) = true
  (¬decision → t.loss = g.loss ∧ t.gain = g.gain ∧ t.clear = g.clear
    ∧ t.conditions &&& both = g.conditions &&& both)
  ∧ (decision → held = 0 → t.conditions = 0 ∧ t.loss = loss ∧ t.gain = gain ∧ t.clear = 0)
  ∧ (decision → held ≠ 0 → ¬small → t.conditions = held ∧ t.loss = loss ∧ t.gain = gain ∧ t.clear = 0)
  ∧ (decision → held ≠ 0 → small → clear + 1 < K →
      t.conditions = held ∧ t.loss = loss ∧ t.gain = gain ∧ t.clear = clear + 1)
  ∧ (decision → held ≠ 0 → small → K ≤ clear + 1 → t.conditions = 0 ∧ t.loss = 0 ∧ t.gain = 0 ∧ t.clear = 0)

/-- The records a marker asks for: of the segments, of the run, and of the points, these after the window has advanced. -/
def markerReports (s t : State) : List Report :=
  let closing := s.engine.windowNumber
  let next := closing + 1
  allSlots.flatMap (fun g => segmentReports g { Origins.none with balance := true } closing (releaseAt closing s)
      (s.balance.segments.get g) (t.balance.segments.get g))
    ++ provingReports closing (releaseAt closing s) s.proving t.proving
    ++ allPoints.flatMap (fun p => pointReports p { Origins.none with engine := true } next (releaseAt next s)
      (s.engine.points.get p) (t.engine.points.get p))

/-- The engine comes to the end of a marker taken in this state without a wait: nothing is held back, and the own-access
queue has places for the CONDITION record and the publication of each enabled segment, the outbound summaries, and the
record and publication of a run in progress; where points become STALE, for every publication of the close and their
records too. -/
def MarkerPlaces (s : State) : Prop :=
  let segments := allSlots.countP (fun g => segmentEnabled (s.balance.entries.get g).entry)
  let summaries := allPoints.countP (fun p => s.pointEnabled p && entryExports (s.engine.pointEntries.get p).entry)
  let run := if provingInProgress s then 2 else 0
  let falls (p : Fin 16) : Bool :=
    let x := s.engine.points.get p
    match (s.engine.pointEntries.get p).entry with
    | some e => e.enable && !x.window.velocitySeen && decide (e.staleLimit.toNat ≤ min (x.silentWindows + 1) 255)
        && x.conditions &&& condStale == 0
    | none => false
  let stale := allPoints.countP falls
  s.pub.heldDigests = [] ∧ s.pub.queue.length + 2 * segments + summaries + run ≤ 32
    ∧ (stale = 0 ∨ s.pub.queue.length + segments + summaries + run + 25 + stale ≤ 32)

/-- R118, R125 to R127, R135, R137, R141 to R146: a marker closes the window of each enabled point and slot, and then, when
nothing is left in hand, each enabled segment has taken its step over the amounts handed over, with the CONDITION cause
set for a change; each enabled exporting point's summary stands in the queue behind the earlier ones, in point order;
the window number is raised and every record of a close asked for; and a CONDITION record is reserved for each segment and
each point whose conditions changed, a PROVING record between them for a run that changed (R118, R146, R153). What the last
stages do is stated when nothing is left in hand, as is so where the own-access queue has places for it all; the order of
what they do is the model's reading (logs 8, 13). -/
def Obligations.MarkerClosesWindows : Prop :=
  ∀ (s : State) (rest : List WorkItem), s.engine.job = none → s.engine.workQueue = .marker :: rest →
    ∃ t, exec .takeWindowCloseMarker s = .next t
      ∧ t.engine = { s.engine with
          workQueue := rest
          points := t.engine.points
          slots := t.engine.slots
          windowNumber := t.engine.windowNumber
          job := t.engine.job }
      ∧ (∀ p, s.pointEnabled p = false → t.engine.points.get p = s.engine.points.get p)
      ∧ (∀ p e, (s.engine.pointEntries.get p).entry = some e → e.enable = true →
          let old := s.engine.points.get p
          let silent := if old.window.velocitySeen then old.silentWindows else min (old.silentWindows + 1) 255
          let closed : ClosedWindow := ⟨s.engine.windowNumber, old.window.volume, old.window.solids,
            old.window.volumeComplete && old.window.velocitySeen, old.window.solidsComplete && old.window.velocitySeen⟩
          t.engine.points.get p = { old with
            closed := closed
            silentWindows := silent
            conditions := if old.window.velocitySeen = false ∧ e.staleLimit.toNat ≤ silent
              then old.conditions ||| condStale else old.conditions
            window := ⟨0, 0, 0, 0, true, true, false⟩ })
      ∧ (∀ r, t.engine.slots.get r =
          let x := s.engine.slots.get r
          if slotEnabled (s.engine.slotEntries.get r).entry then
            ⟨0, 0, 0, true, false, x.volume, x.solids, decide (1 ≤ x.count) && x.allComplete && !x.mismatch⟩
          else x)
      ∧ (MarkerPlaces s → t.engine.job = none)
      ∧ (t.engine.job = none → t.engine.windowNumber = s.engine.windowNumber + 1
          ∧ (∀ r : Fin 28, r.val ≤ 24 → Asked r t)
          ∧ (∀ g e, (s.balance.entries.get g).entry = some e → e.enable = true →
              let old := s.balance.segments.get g
              let new := t.balance.segments.get g
              segmentCompared e s.engine.windowNumber (sourceHanded s t e.basis e.inflow)
                  (pointHanded s t e.basis e.outflow) old new
                ∧ segmentDecided e old new
                ∧ (old.conditions ≠ new.conditions → s.inEffect.causeEnable.getLsbD 1 = true → t.irq.getLsbD 1 = true))
          ∧ (let exporting := allPoints.filter
                (fun p => s.pointEnabled p && entryExports (s.engine.pointEntries.get p).entry)
             t.pub.queue.filter isOutbound = s.pub.queue.filter isOutbound ++ exporting.mapIdx (fun i p =>
                .outbound (s.pub.outboundIndex + BitVec.ofNat 5 i)
                  (summaryWords s.inEffect.stationId p (t.engine.points.get p).closed))
              ∧ t.pub.outboundIndex = s.pub.outboundIndex + BitVec.ofNat 5 exporting.length)
          ∧ Reported (markerReports s t) s t
          ∧ (∀ p, (s.engine.points.get p).conditions ≠ (t.engine.points.get p).conditions →
              s.inEffect.causeEnable.getLsbD 1 = true → t.irq.getLsbD 1 = true))
      ∧ (∀ g, segmentEnabled (s.balance.entries.get g).entry = false →
          t.balance.segments.get g = s.balance.segments.get g)
      ∧ t.balance.entries = s.balance.entries ∧ t.balance.relayed = s.balance.relayed
      ∧ t.balance.relayDropped = s.balance.relayDropped
      ∧ t.asm = s.asm ∧ t.cls = s.cls ∧ t.arith = s.arith ∧ t.settings = s.settings ∧ t.timer = s.timer
      ∧ t.cmd = s.cmd ∧ t.path = { s.path with yield := t.path.yield }

/-- R153, R154, R156, R157: the end of a marker's processing moves a run on: ARMED becomes RUNNING from the next window;
RUNNING counts the window, and is ABORTED for STALE, COMPLETE at the windows requested, or goes on. A completed run has
its factor, the reference volume over the test volume, and its deviation, the difference of the two over the reference
volume; a zero divisor gives NaN, and a NaN result adds INVALID. A change of the state reserves a PROVING record and sets
PROVING, and each close of a run in progress has the record published. That the PROVING record stands behind those of the
segments and before those of the points is the model's reading (logs 8, 13). -/
def Obligations.MarkerMovesRun : Prop :=
  ∀ (s t : State) (rest : List WorkItem), s.engine.job = none → s.engine.workQueue = .marker :: rest →
    exec .takeWindowCloseMarker s = .next t → t.engine.job = none →
    let r := s.proving
    let stale := (t.engine.points.get r.test).conditions &&& condStale ≠ 0
      ∨ (t.engine.points.get r.reference).conditions &&& condStale ≠ 0
    let complete := (t.engine.points.get r.test).closed.volumeComplete = true
      ∧ (t.engine.points.get r.reference).closed.volumeComplete = true
    let divided (a b : F64) : F64 := if f64IsZero b then f64NaN else (fDiv (held64 a) (held64 b)).value
    let factor := divided r.referenceVolume r.testVolume
    let deviation := divided (fSub (held64 r.testVolume) (held64 r.referenceVolume)).value r.referenceVolume
    (r.run = .armed → t.proving =
      { r with run := .running, elapsed := 0, firstWindow := s.engine.windowNumber + 1 })
    ∧ (r.run = .running → t.proving.elapsed = r.elapsed + 1
        ∧ (complete → t.proving.incomplete = r.incomplete) ∧ (¬complete → t.proving.incomplete = true)
        ∧ (stale → t.proving.run = .aborted ∧ t.proving.abort = .stale)
        ∧ (¬stale → r.elapsed + 1 = r.requested → t.proving.run = .complete ∧ t.proving.abort = .none
            ∧ t.proving.factor = factor ∧ t.proving.deviation = deviation
            ∧ t.proving.invalid = (r.invalid || f64IsNaN factor || f64IsNaN deviation))
        ∧ (¬stale → r.elapsed + 1 ≠ r.requested → t.proving.run = .running)
        ∧ (stale ∨ r.elapsed + 1 ≠ r.requested → t.proving.factor = r.factor ∧ t.proving.deviation = r.deviation
            ∧ t.proving.invalid = r.invalid)
        ∧ t.proving.testCount = r.testCount ∧ t.proving.referenceCount = r.referenceCount
        ∧ t.proving.firstWindow = r.firstWindow ∧ t.proving.number = r.number ∧ t.proving.owner = r.owner
        ∧ t.proving.test = r.test ∧ t.proving.reference = r.reference ∧ t.proving.requested = r.requested
        ∧ t.proving.testVolume = r.testVolume ∧ t.proving.referenceVolume = r.referenceVolume)
    ∧ (r.run = .armed ∨ r.run = .running → Asked provingRecordNo t)
    ∧ (r.run ≠ t.proving.run → s.inEffect.causeEnable.getLsbD 4 = true → t.irq.getLsbD 4 = true)
    ∧ Reported (markerReports s t) s t
    ∧ (r.run ≠ .armed → r.run ≠ .running → t.proving = r)

/-! ### Commands (Chapter 10) -/

/-- The command has no effect beyond its status, REFUSED with this reason (R183). -/
def Refuses (i : Instr) (c : CommandItem) (rest : List WorkItem) (s : State) (reason : StatusReason) : Prop :=
  ∃ t, exec i s = .next t ∧ ReportsFrom { s with engine := { s.engine with workQueue := rest } } t
    ∧ StatusFollows c.slot (statusWord c.word reason 0 0) [] 0 s t ∧ t.irq = s.irq ∧ t.pub.digest = s.pub.digest
    ∧ t.pub.records = s.pub.records

/-- The command is carried out: DONE, with `e` its effect but for reports. -/
def CarriesOut (i : Instr) (c : CommandItem) (s e : State) : Prop :=
  ∃ t, exec i s = .next t ∧ ReportsFrom e t ∧ StatusFollows c.slot (statusWord c.word .none 0 0) [] 0 s t

/-- R183, R184: an unknown kind is refused whatever processing enable is; with processing off every kind but RELOAD IMAGE,
CLEAR FAULTS and RESYNC DIGEST is refused DISABLED; the owners refuse as R128, R129, R147, R148, R84, R151 and R158 state,
the checks of R151 in their order; the STATUS item joins at once where it finds a place; which entries a run protects is
that of FetchedEntryDecided. -/
def Obligations.CommandsRefused : Prop :=
  (∀ (s : State) (c : CommandItem) (rest : List WorkItem), CommandInFront c rest s →
      let kind := bits c.word 0 4
      (kind = 0 ∨ 10 ≤ kind → Refuses .unknownCommand c rest s .unknownCommand)
      ∧ (s.inEffect.enable = false →
        (kind = 1 → Refuses .clearTotals c rest s .disabled) ∧ (kind = 2 → Refuses .ackConditions c rest s .disabled)
        ∧ (kind = 3 → Refuses .startProving c rest s .disabled) ∧ (kind = 4 → Refuses .endProving c rest s .disabled)
        ∧ (kind = 7 → Refuses .armCapture c rest s .disabled) ∧ (kind = 9 → Refuses .resetSegment c rest s .disabled)))
  ∧ (∀ (s : State) (c : CommandItem) (rest : List WorkItem), CommandInFront c rest s → s.inEffect.enable = true →
      let kind := bits c.word 0 4
      let target := bits c.word 8 8
      let segment := c.word.getLsbD 4
      let named (p : Fin 16) : Prop := p = s.proving.test ∨ p = s.proving.reference
      (kind = 1 → 16 ≤ target → Refuses .clearTotals c rest s .badTarget)
      ∧ (kind = 1 → target < 16 → provingInProgress s = true → named (Fin.ofNat 16 target) →
          Refuses .clearTotals c rest s .provingActive)
      ∧ (kind = 2 → (segment = true ∧ 8 ≤ target) ∨ (segment = false ∧ 16 ≤ target) →
          Refuses .ackConditions c rest s .badTarget)
      ∧ (kind = 3 → ∀ reason, startRefusal s target (wordAt c.args 0) (wordAt c.args 1) = some reason → Refuses .startProving c rest s reason)
      ∧ (kind = 4 → provingInProgress s = false → Refuses .endProving c rest s .notRunning)
      ∧ (kind = 4 → provingInProgress s = true → c.word.extractLsb' 16 8 ≠ s.proving.owner →
          Refuses .endProving c rest s .notOwner)
      ∧ (kind = 7 → 64 ≤ target ∨ (target < 64 ∧ armable (s.cls.entries.get (Fin.ofNat 64 target)).entry = false) →
          Refuses .armCapture c rest s .badTarget)
      ∧ (kind = 9 → 8 ≤ target → Refuses .resetSegment c rest s .badTarget))
  ∧ (∀ (s : State) (target : Nat) (reference windows : Word),
      let outside := 16 ≤ target ∨ 16 ≤ reference.toNat ∨ target = reference.toNat ∨ windows.toNat = 0
        ∨ 255 < windows.toNat
      let off := s.pointEnabled (Fin.ofNat 16 target) = false ∨ s.pointEnabled (Fin.ofNat 16 reference.toNat) = false
      let pending := ∃ t pos words n, s.path.current = some ⟨t, .held (.commit pos) words n⟩
        ∧ protectedUnder s (Fin.ofNat 16 target) (Fin.ofNat 16 reference.toNat) pos words = true
      (provingInProgress s = true → startRefusal s target reference windows = some .busy)
      ∧ (provingInProgress s = false → outside ∨ off → startRefusal s target reference windows = some .badTarget)
      ∧ (provingInProgress s = false → ¬outside → ¬off → pending → startRefusal s target reference windows = some .busy)
      ∧ (provingInProgress s = false → ¬outside → ¬off → ¬pending → startRefusal s target reference windows = none))

/-- The CONDITION record of a command's change of segment `g`'s conditions, which is reserved, its cause set and its
publication asked for (R146). -/
def segmentCommandReports (g : Fin 8) (old new : Segment) (s : State) : List Report :=
  segmentReports g { Origins.none with command := true } s.engine.windowNumber (releaseAt s.engine.windowNumber s) old new

def SegmentReported (g : Fin 8) (old new : Segment) (s t : State) : Prop :=
  Reported (segmentCommandReports g old new s) s t
    ∧ (old.conditions ≠ new.conditions →
      Asked (segmentRecordNo g) t ∧ (s.inEffect.causeEnable.getLsbD 1 = true → t.irq.getLsbD 1 = true))

/-- R128: CLEAR TOTALS empties the totals of a point with its count, sticky flags and base, and marks the window of an
enabled one. R129, R118, R148: ACK CONDITIONS on a point clears HOLD and removes the named conditions, and with ARITH
named empties the sticky flags, a change being reported; on a segment it removes LOSS or GAIN with their counts, a change
being reported (R146). That the record of a segment's report shows the current window number (log 11), and that its cause and
publication come before the engine waits with its DIGEST item (log 8), are the model's readings. -/
def Obligations.PointAndSegmentCommandsAct : Prop :=
  (∀ (s : State) (c : CommandItem) (rest : List WorkItem) (p : Fin 16), CommandInFront c rest s →
      s.inEffect.enable = true → bits c.word 0 4 = 1 → bits c.word 8 8 = p.val →
      provingInProgress s = false ∨ (p ≠ s.proving.test ∧ p ≠ s.proving.reference) →
      let old := s.engine.points.get p
      let window := if s.pointEnabled p then
          { old.window with volumeComplete := false, solidsComplete := false } else old.window
      let new : PointRecord :=
        { old with
          volumeTotal := 0
          solidsTotal := 0
          sampleCount := 0
          sticky := 0
          baseFlag := false
          window := window }
      ∃ t, exec .clearTotals s = .next t
        ∧ ReportsFrom { s with engine := { s.engine with workQueue := rest, points := upd s.engine.points p new } } t
        ∧ Asked (pointRecordNo p) t ∧ StatusFollows c.slot (statusWord c.word .none 0 0) [] 1 s t
        ∧ t.irq = s.irq ∧ t.pub.digest = s.pub.digest)
  ∧ (∀ (s : State) (c : CommandItem) (rest : List WorkItem) (p : Fin 16), CommandInFront c rest s →
      s.inEffect.enable = true → bits c.word 0 4 = 2 → c.word.getLsbD 4 = false → bits c.word 8 8 = p.val →
      let old := s.engine.points.get p
      let named := (wordAt c.args 0).extractLsb' 0 8
      let new : PointRecord :=
        { old with
          hold := false
          conditions := old.conditions &&& ~~~named
          sticky := if named.getLsbD 7 then 0 else old.sticky }
      ∃ t, exec .ackConditions s = .next t
        ∧ ReportsFrom { s with engine := { s.engine with workQueue := rest, points := upd s.engine.points p new } } t
        ∧ StatusFollows c.slot (statusWord c.word .none 0 0) (pointReports p { Origins.none with command := true }
            s.engine.windowNumber (releaseAt s.engine.windowNumber s) old new) 1 s t
        ∧ PointReported [] p { Origins.none with command := true } old new s t
        ∧ (old.conditions = new.conditions → old.hold = new.hold → t.pub.digest = s.pub.digest ∧ t.irq = s.irq))
  ∧ (∀ (s : State) (c : CommandItem) (rest : List WorkItem) (g : Fin 8), CommandInFront c rest s →
      s.inEffect.enable = true → bits c.word 0 4 = 2 → c.word.getLsbD 4 = true → bits c.word 8 8 = g.val →
      let old := s.balance.segments.get g
      let loss := (wordAt c.args 0).getLsbD 0
      let gain := (wordAt c.args 0).getLsbD 1
      let new : Segment :=
        { old with
          conditions := old.conditions &&& ~~~((if loss then segLoss else 0) ||| (if gain then segGain else 0))
          loss := if loss then 0 else old.loss
          gain := if gain then 0 else old.gain
          clear := if loss || gain then 0 else old.clear }
      ∃ t, exec .ackConditions s = .next t
        ∧ ReportsFrom { s with
            engine := { s.engine with workQueue := rest }
            balance := { s.balance with segments := upd s.balance.segments g new } } t
        ∧ StatusFollows c.slot (statusWord c.word .none 0 0) (segmentCommandReports g old new s) 1 s t
        ∧ SegmentReported g old new s t)

/-- R151 to R153, R158: an accepted START PROVING arms a new run, reserves a PROVING record, asks for a publication, and
sets PROVING when the engine has done; END PROVING from the owner of a run in progress aborts it. That the publication has
been asked for while the engine still waits for the PROVING DIGEST item is the model's reading of the order (log 8). -/
def Obligations.ProvingCommandsAct : Prop :=
  (∀ (s : State) (c : CommandItem) (rest : List WorkItem), CommandInFront c rest s → s.inEffect.enable = true →
      bits c.word 0 4 = 3 →
      startRefusal s (bits c.word 8 8) (wordAt c.args 0) (wordAt c.args 1) = none →
      let reports := provingReports s.engine.windowNumber (releaseAt s.engine.windowNumber s) s.proving
      let armed : ProvingState :=
        ⟨.armed, s.proving.number + 1, c.word.extractLsb' 16 8, Fin.ofNat 16 (bits c.word 8 8),
          Fin.ofNat 16 (wordAt c.args 0).toNat, (wordAt c.args 1).setWidth 8, 0, 0, 0, 0, 0, 0, 0, 0, false, false, .none⟩
      ∃ t, exec .startProving s = .next t
        ∧ ReportsFrom { s with engine := { s.engine with workQueue := rest }, proving := armed } t
        ∧ Reported (reports armed) s t
        ∧ Asked provingRecordNo t ∧ StatusFollows c.slot (statusWord c.word .none 0 0) (reports armed) 1 s t
        ∧ (t.engine.job = none → s.inEffect.causeEnable.getLsbD 4 = true → t.irq.getLsbD 4 = true))
  ∧ (∀ (s : State) (c : CommandItem) (rest : List WorkItem), CommandInFront c rest s → s.inEffect.enable = true →
      bits c.word 0 4 = 4 → provingInProgress s = true → c.word.extractLsb' 16 8 = s.proving.owner →
      let reports := provingReports s.engine.windowNumber (releaseAt s.engine.windowNumber s) s.proving
      let aborted : ProvingState := { s.proving with run := .aborted, abort := .command }
      ∃ t, exec .endProving s = .next t
        ∧ ReportsFrom { s with engine := { s.engine with workQueue := rest }, proving := aborted } t
        ∧ Reported (reports aborted) s t
        ∧ Asked provingRecordNo t ∧ StatusFollows c.slot (statusWord c.word .none 0 0) (reports aborted) 1 s t
        ∧ (t.engine.job = none → s.inEffect.causeEnable.getLsbD 4 = true → t.irq.getLsbD 4 = true))

/-- The 138 entry positions in the order of R41. -/
def fetchOrder : List EntryPos :=
  [.globalSettings, .band] ++ (List.finRange 8).map .checker ++ (List.finRange 32).map .conversion
    ++ (List.finRange 16).map .point ++ (List.finRange 8).map .segment ++ (List.finRange 8).map .slot
    ++ (List.finRange 64).map .classification

/-- R41, R174, R84, R22, R107, R147: RELOAD IMAGE starts a reload, with processing on or off: one FETCH item for each of
the 138 entry positions, in the order of R41, those for which there is room joining at once, the next waiting and the
others left to be offered; the engine keeps the command in hand. RESYNC DIGEST releases every WRITTEN entry uncounted, and
CLEAR FAULTS empties both fault records, with processing on or off; ARM CAPTURE arms a loaded entry with capture mode NEXT;
RESET SEGMENT empties the record of an enabled segment to FILLING and leaves a disabled one, a change of the conditions
being reported; that its record shows S 0, no last difference and the current window number (log 11), and that its cause
and publication come before the engine waits with its DIGEST item (log 8), are the model's readings. -/
def Obligations.ReloadRingFaultCaptureSegmentCommandsAct : Prop :=
  (∀ (s : State) (c : CommandItem) (rest : List WorkItem), CommandInFront c rest s → bits c.word 0 4 = 6 →
      ∃ t, exec .resyncDigest s = .next t
        ∧ ReportsFrom { s with engine := { s.engine with workQueue := rest } } t
        ∧ t.pub.digest = { s.pub.digest with
            oldest := (s.pub.digest.oldest + (s.pub.digest.occupied.filter (·.written)).length) % s.inEffect.ringSize
            occupied := s.pub.digest.occupied.filter (fun e => !e.written) }
        ∧ t.pub.digestAbandoned = s.pub.digestAbandoned
        ∧ StatusFollows c.slot (statusWord c.word .none 0 0) [] 0 s t)
  ∧ (∀ (s : State) (c : CommandItem) (rest : List WorkItem) (e : Fin 64), CommandInFront c rest s →
      s.inEffect.enable = true → bits c.word 0 4 = 7 → bits c.word 8 8 = e.val →
      armable (s.cls.entries.get e).entry = true →
      CarriesOut .armCapture c s { s with
        engine := { s.engine with workQueue := rest }
        cls := { s.cls with armed := upd s.cls.armed e true } })
  ∧ (∀ (s : State) (c : CommandItem) (rest : List WorkItem), CommandInFront c rest s → bits c.word 0 4 = 8 →
      ∃ t, exec .clearFaults s = .next t
        ∧ ReportsFrom { s with
            engine := { s.engine with workQueue := rest }
            path := { s.path with fault := none }
            arith := { s.arith with fault := none } } t
        ∧ Asked accessFaultRecordNo t ∧ Asked arithFaultRecordNo t
        ∧ StatusFollows c.slot (statusWord c.word .none 0 0) [] 2 s t)
  ∧ (∀ (s : State) (c : CommandItem) (rest : List WorkItem) (g : Fin 8), CommandInFront c rest s →
      s.inEffect.enable = true → bits c.word 0 4 = 9 → bits c.word 8 8 = g.val →
      let segments := if segmentEnabled (s.balance.entries.get g).entry then
          upd s.balance.segments g ⟨.filling, [], [], 0, 0, 0, 0, 0, none, none⟩
        else s.balance.segments
      ∃ t, exec .resetSegment s = .next t
        ∧ ReportsFrom { s with
            engine := { s.engine with workQueue := rest }
            balance := { s.balance with segments := segments } } t
        ∧ Asked (segmentRecordNo g) t
        ∧ StatusFollows c.slot (statusWord c.word .none 0 0)
            (segmentCommandReports g (s.balance.segments.get g) (segments.get g) s) 1 s t
        ∧ SegmentReported g (s.balance.segments.get g) (segments.get g) s t)
  ∧ (∀ (s : State) (c : CommandItem) (rest : List WorkItem), CommandInFront c rest s → bits c.word 0 4 = 5 →
      ∃ t, exec .reloadImage s = .next t
        ∧ ReportsFrom { s with engine := { s.engine with workQueue := rest, reload := some ⟨0, 0, 0⟩ } } t
        ∧ (∃ (j : Job) (joined offered left : List EntryPos), t.engine.job = some j ∧ joined ++ offered ++ left = fetchOrder
          ∧ t.pub.queue = s.pub.queue ++ joined.map .fetch ∧ j.offer = offered.head?.map .fetch ∧ offered.length ≤ 1
          ∧ j.acts = .await :: left.flatMap (fun pos => [.offer (.fetch pos), .await])
          ∧ j.stages = [.reloadEnd c.slot c.word]
          ∧ (s.pub.heldDigests.any (·.byEngine) = false →
            joined.length = 32 - s.pub.queue.length ∧ offered.length = 1))
        ∧ t.pub.digest = s.pub.digest ∧ t.pub.records = s.pub.records ∧ t.irq = s.irq)

/-! ### Arithmetic (Chapter 5) -/

/-- A binary64 encoding that is neither infinite nor NaN, and the number it stands for (section 1.6). -/
def isFinite64 (x : F64) : Prop := (x.extractLsb' 52 11).toNat ≠ 2047

def value64 (x : F64) : ℚ :=
  let e := (x.extractLsb' 52 11).toNat
  let m : Nat := (x.extractLsb' 0 52).toNat + (if e = 0 then 0 else 2 ^ 52)
  (if x.getLsbD 63 then -1 else 1) * ((m : ℚ) * 2 ^ (e - 1) / 2 ^ 1074)

/-- The same of binary32. -/
def isFinite32 (x : F32) : Prop := (x.extractLsb' 23 8).toNat ≠ 255

def value32 (x : F32) : ℚ :=
  let e := (x.extractLsb' 23 8).toNat
  let m : Nat := (x.extractLsb' 0 23).toNat + (if e = 0 then 0 else 2 ^ 23)
  (if x.getLsbD 31 then -1 else 1) * ((m : ℚ) * 2 ^ (e - 1) / 2 ^ 149)

def isNaN64 (x : F64) : Prop := (x.extractLsb' 52 11).toNat = 2047 ∧ x.extractLsb' 0 52 ≠ 0

def isNaN32 (x : F32) : Prop := (x.extractLsb' 23 8).toNat = 255 ∧ x.extractLsb' 0 23 ≠ 0

def infinity64 (negative : Bool) : F64 := if negative then 0xFFF0000000000000#64 else 0x7FF0000000000000#64

def zero64 (negative : Bool) : F64 := if negative then 0x8000000000000000#64 else 0

/-- An infinite, a zero operand of either sign. -/
def isInfinite (x : F64) : Prop := ∃ b, x = infinity64 b

def isZero (x : F64) : Prop := ∃ b, x = zero64 b

/-- The canonical quiet NaN with INVALID and these kinds (R89, R90). -/
def invalidWith (kinds : Kinds) : Result := ⟨0x7FF8000000000000#64, kInvalid ||| kinds⟩

/-- `r` is the exact nonzero result rounded to binary64 once, to nearest with ties to even, with the kinds of R90 besides
these: an infinity with OVERFLOW and INEXACT from half a unit above the largest finite value on, and otherwise the nearest
finite value with the sign of the exact result, INEXACT where it differs from that, and then UNDERFLOW below the smallest
normal value. -/
def RoundsTo (exact : ℝ) (kinds : Kinds) (r : Result) : Prop :=
  let rounded : ℝ := value64 r.value
  (2 ^ 1024 - 2 ^ 970 ≤ |exact| → (0 < exact → r.value = infinity64 false) ∧ (exact < 0 → r.value = infinity64 true)
    ∧ r.kinds = kOverflow ||| kInexact ||| kinds)
  ∧ (|exact| < 2 ^ 1024 - 2 ^ 970 → isFinite64 r.value ∧ (r.value.getLsbD 63 = true ↔ exact < 0)
    ∧ (∀ z, isFinite64 z → |rounded - exact| ≤ |(value64 z : ℝ) - exact|)
    ∧ (∀ z, isFinite64 z → |(value64 z : ℝ) - exact| = |rounded - exact| → value64 z ≠ value64 r.value →
        r.value.getLsbD 0 = false)
    ∧ (rounded = exact → r.kinds = kinds)
    ∧ (rounded ≠ exact → 1 / 2 ^ 1022 ≤ |exact| → r.kinds = kInexact ||| kinds)
    ∧ (rounded ≠ exact → |exact| < 1 / 2 ^ 1022 → r.kinds = kUnderflow ||| kInexact ||| kinds))

/-- R88 to R90: each operation rounds its exact result once, with DENORMAL for a subnormal operand; an exact zero has the
sign of R89; a NaN operand gives the canonical NaN with INVALID alone, and an invalid operation gives it with INVALID; any
other operation on an infinite operand is exact and raises nothing, DENORMAL included, which is the model's reading (log
34), as is the sign of a zero difference (log 12). A nonzero value divided by zero is left out: no step divides so (R96,
R157). -/
def Obligations.OperationsRounded : Prop :=
  (∀ (a b : Operand), let x := a.value
    let y := b.value
    let denormal : Kinds := if a.denormal = true ∨ b.denormal = true then kDenormal else 0
    let differ : Bool := x.getLsbD 63 != y.getLsbD 63
    (isNaN64 x ∨ isNaN64 y → [fAdd a b, fSub a b, fMul a b, fDiv a b] = List.replicate 4 (invalidWith 0))
    ∧ (isFinite64 x → isFinite64 y →
      let sum : ℝ := value64 x + value64 y
      let difference : ℝ := value64 x - value64 y
      (sum ≠ 0 → RoundsTo sum denormal (fAdd a b))
      ∧ (sum = 0 → fAdd a b = ⟨zero64 (x == zero64 true && y == zero64 true), denormal⟩)
      ∧ (difference ≠ 0 → RoundsTo difference denormal (fSub a b))
      ∧ (difference = 0 → fSub a b = ⟨0, denormal⟩)
      ∧ (¬isZero x → ¬isZero y → RoundsTo (value64 x * value64 y) denormal (fMul a b)
        ∧ RoundsTo (value64 x / value64 y) denormal (fDiv a b))
      ∧ (isZero x ∨ isZero y → fMul a b = ⟨zero64 differ, denormal⟩)
      ∧ (isZero x → ¬isZero y → fDiv a b = ⟨zero64 differ, denormal⟩)
      ∧ (isZero x → isZero y → fDiv a b = invalidWith denormal))
    ∧ (∀ m n, x = infinity64 m → y = infinity64 n →
      (m = n → fAdd a b = ⟨x, 0⟩ ∧ fSub a b = invalidWith denormal)
      ∧ (m ≠ n → fAdd a b = invalidWith denormal ∧ fSub a b = ⟨x, 0⟩)
      ∧ fMul a b = ⟨infinity64 differ, 0⟩ ∧ fDiv a b = invalidWith denormal)
    ∧ (isInfinite x → isFinite64 y → fAdd a b = ⟨x, 0⟩ ∧ fSub a b = ⟨x, 0⟩ ∧ fDiv a b = ⟨infinity64 differ, 0⟩
      ∧ (isZero y → fMul a b = invalidWith denormal) ∧ (¬isZero y → fMul a b = ⟨infinity64 differ, 0⟩))
    ∧ (∀ n, isFinite64 x → y = infinity64 n → fAdd a b = ⟨y, 0⟩ ∧ fSub a b = ⟨infinity64 (!n), 0⟩
      ∧ fDiv a b = ⟨zero64 differ, 0⟩
      ∧ (isZero x → fMul a b = invalidWith denormal) ∧ (¬isZero x → fMul a b = ⟨infinity64 differ, 0⟩)))
  ∧ (∀ (a : Operand), let x := a.value
    let denormal : Kinds := if a.denormal = true then kDenormal else 0
    (isNaN64 x → fSqrt a = invalidWith 0)
    ∧ (isFinite64 x → 0 < value64 x → RoundsTo (Real.sqrt (value64 x)) denormal (fSqrt a))
    ∧ (isZero x → fSqrt a = ⟨x, denormal⟩)
    ∧ (x.getLsbD 63 = true → ¬isZero x → ¬isNaN64 x → fSqrt a = invalidWith denormal)
    ∧ (x = infinity64 false → fSqrt a = ⟨x, 0⟩))
  ∧ (∀ x : F64, held64 x = ⟨x, decide ((x.extractLsb' 52 11).toNat = 0 ∧ x.extractLsb' 0 52 ≠ 0)⟩)
  ∧ (∀ x : F32, held32 x = ⟨widen x, decide ((x.extractLsb' 23 8).toNat = 0 ∧ x.extractLsb' 0 23 ≠ 0)⟩)

/-- R88, R89, R99, R70, R72: binary32 values and integers enter the arithmetic exactly, a NaN as the canonical one; narrowing
rounds once to binary32, to nearest with ties to even, keeping the sign of an infinity and a zero; and values compare as
numbers, the two zeros as equal, an infinity beyond every finite value, a NaN with nothing. -/
def Obligations.FormatsConvertedAndCompared : Prop :=
  (∀ x : F32,
    (isFinite32 x → isFinite64 (widen x) ∧ value64 (widen x) = value32 x ∧ (widen x).getLsbD 63 = x.getLsbD 31)
    ∧ (widen 0x7F800000 = infinity64 false ∧ widen 0xFF800000 = infinity64 true)
    ∧ (isNaN32 x → widen x = 0x7FF8000000000000))
  ∧ (∀ i : Int, -2 ^ 31 ≤ i → i < 2 ^ 32 →
      isFinite64 (f64OfInt i) ∧ value64 (f64OfInt i) = i ∧ ((f64OfInt i).getLsbD 63 = true ↔ i < 0)
        ∧ intOperand i = ⟨f64OfInt i, false⟩)
  ∧ (∀ x : F64, let y := narrow x
    let v := value64 x
    (isNaN64 x → y = 0x7FC00000)
    ∧ (x = infinity64 false → y = 0x7F800000) ∧ (x = infinity64 true → y = 0xFF800000)
    ∧ (x = zero64 false → y = 0) ∧ (x = zero64 true → y = 0x80000000)
    ∧ (isFinite64 x → 2 ^ 128 - 2 ^ 103 ≤ |v| →
        y = if x.getLsbD 63 then 0xFF800000 else 0x7F800000)
    ∧ (isFinite64 x → ¬isZero x → |v| < 2 ^ 128 - 2 ^ 103 →
      isFinite32 y ∧ y.getLsbD 31 = x.getLsbD 63
        ∧ (∀ z, isFinite32 z → |value32 y - v| ≤ |value32 z - v|)
        ∧ ∀ z, isFinite32 z → |value32 z - v| = |value32 y - v| → value32 z ≠ value32 y → y.getLsbD 0 = false))
  ∧ (∀ x y : F64,
    let place (z : F64) : ℚ :=
      if z = infinity64 false then 2 ^ 1024 else if z = infinity64 true then -2 ^ 1024 else value64 z
    (isNaN64 x ∨ isNaN64 y → fLe x y = false ∧ fLt x y = false)
    ∧ (¬isNaN64 x → ¬isNaN64 y → (fLe x y = true ↔ place x ≤ place y) ∧ (fLt x y = true ↔ place x < place y)))

/-! ### Single rules -/

/-- R95: the FLOW step. -/
def Obligations.FlowStep : Prop :=
  ∀ (e : PointEntry) (velocity : F64), flowStep e velocity = fMul (held32 e.area) (held64 velocity)

/-- R117: the condition mode applied to a point. -/
def Obligations.ConditionModeApplied : Prop :=
  ∀ (mode : CondMode) (operand : BitVec 8) (r : PointRecord), operand &&& ~~~lookupConditions = 0 →
    let x := applyMode mode operand r
    let six (c : BitVec 8) : BitVec 8 := c &&& lookupConditions
    (r.hold = true → x = r)
    ∧ x.conditions &&& ~~~lookupConditions = r.conditions &&& ~~~lookupConditions
    ∧ (r.hold = false →
      (mode = .none → x = r)
      ∧ (mode = .raise → six x.conditions = six r.conditions ||| operand ∧ x.hold = false)
      ∧ (mode = .clear → six x.conditions = six r.conditions &&& ~~~operand ∧ x.hold = false)
      ∧ (mode = .replace → six x.conditions = operand ∧ x.hold = false)
      ∧ (mode = .replaceHold → six x.conditions = operand ∧ x.hold = true))
    ∧ x = { r with conditions := x.conditions, hold := x.hold }

/-- R188: the interrupt request line. -/
def Obligations.InterruptLine : Prop :=
  (∀ s : State, (s.irq ≠ 0 → s.irqLine = true) ∧ (s.irq = 0 → s.irqLine = false))
    ∧ ∀ base tag (s t : State), exec (.powerOnReset base tag) s = .next t → t.irqLine = false

/-! ### What every step keeps -/

/-- `Inv` holds after every step that answers a next state. -/
def KeptByStep (Inv : State → Prop) : Prop := ∀ s t : State, Inv s → step s = .next t → Inv t

/-- R108, R109, R181. -/
def Obligations.StepKeepsWorkQueueBound : Prop := KeptByStep WorkQueueBounded

/-- R130. -/
def Obligations.StepKeepsFrameLaw : Prop := KeptByStep FrameLaw

/-- R162, R18. -/
def Obligations.StepKeepsOwnQueueBound : Prop := KeptByStep OwnQueueBounded

/-- R167. -/
def Obligations.StepKeepsMarks : Prop := KeptByStep MarksAgree

/-- R170, R173. -/
def Obligations.StepKeepsDigestBound : Prop := KeptByStep DigestBounded

/-- R142 to R145. -/
def Obligations.StepKeepsSegments : Prop := KeptByStep SegmentsSound

/-- R187; R82; R180, R181. -/
def Obligations.StepKeepsCausesArmedGrant : Prop :=
  KeptByStep CausesEnabled ∧ KeptByStep ArmedSound ∧ KeptByStep GrantSound

/-- R159. -/
def Obligations.StepKeepsProvingPoints : Prop := KeptByStep ProvingSound

/-- Each of them holds right after reset, whatever levels the straps have; `State.reset` has all straps 0 (log 5). -/
def Obligations.InvariantsHoldAtReset : Prop :=
  State.reset = State.powerOn 0 0
    ∧ ∀ (base : BitVec 4) (tag : BitVec 3), let s := State.powerOn base tag
      CausesEnabled s ∧ WorkQueueBounded s ∧ FrameLaw s ∧ OwnQueueBounded s ∧ MarksAgree s ∧ DigestBounded s
        ∧ SegmentsSound s ∧ ArmedSound s ∧ GrantSound s ∧ ProvingSound s
end

