-- ==== Sys2Proof/Laws/Words.lean ====
section
/-! SUPPORT. Fields of words: the number a field holds, the bits that a placed number sets, and words packed from fields. -/
namespace Sys2Proof.Machine

/-- A field read as a number is the field. -/
theorem bits_eq_extract (w : Word) (lo len : Nat) : bits w lo len = (w.extractLsb' lo len).toNat := by
  simp [bits, BitVec.extractLsb'_toNat, Nat.shiftRight_eq_div_pow]

theorem getLsbD_put (n lo i : Nat) :
    (put n lo).getLsbD i = (decide (i < 32) && decide (lo ≤ i) && n.testBit (i - lo)) := by
  simp only [put, BitVec.getLsbD_ofNat, Bool.and_assoc, Nat.testBit_mul_two_pow]

theorem put_eq_packed (n lo : Nat) : put n lo = packed [(n, lo)] := by simp [put, packed]

theorem putBit_eq_packed (b : Bool) (lo : Nat) : putBit b lo = packed [(b.toNat, lo)] := put_eq_packed _ _

/-- The sequence in a head is the one it was made with (Table 11-14). -/
@[simp] theorem digestSequence_digestHead (kind : DigestKind) (lost : BitVec 8) (sequence : BitVec 16) :
    digestSequence (digestHead kind lost sequence) = sequence := by
  have hk : kind.code < 2 ^ 4 := by cases kind <;> decide
  apply BitVec.eq_of_getLsbD_eq
  intro i hi
  have h1 : kind.code.testBit (16 + i) = false :=
    Nat.testBit_lt_two_pow (Nat.lt_of_lt_of_le hk (Nat.pow_le_pow_right (by decide) (by omega)))
  have h2 : lost.toNat.testBit (16 + i - 8) = false :=
    Nat.testBit_lt_two_pow (Nat.lt_of_lt_of_le lost.isLt (Nat.pow_le_pow_right (by decide) (by omega)))
  simp only [digestSequence, digestHead, BitVec.getLsbD_extractLsb', BitVec.getLsbD_or, getLsbD_put, Nat.sub_zero, h1, h2,
    Nat.add_sub_cancel_left, BitVec.testBit_toNat]
  simp [hi, show 16 + i < 32 by omega]

/-- A number below the next field joins the fields above it. -/
theorem packed_cons (a lo : Nat) (fields : List (Nat × Nat)) (next : Nat) (ha : a * 2 ^ lo < 2 ^ next)
    (hf : ∀ x ∈ fields, next ≤ x.2) : packed ((a, lo) :: fields) = put a lo ||| packed fields := by
  have hd : 2 ^ next ∣ (fields.map (fun x => x.1 * 2 ^ x.2)).sum := by
    clear ha
    induction fields with
    | nil => simp
    | cons x rest ih =>
      simp only [List.map_cons, List.sum_cons]
      refine Nat.dvd_add ?_ (ih (fun y hy => hf y (List.mem_cons_of_mem _ hy)))
      exact Nat.dvd_trans (Nat.pow_dvd_pow 2 (hf x List.mem_cons_self)) (Nat.dvd_mul_left _ _)
  obtain ⟨k, hk⟩ := hd
  have h := Nat.two_pow_add_eq_or_of_lt ha k
  simp only [packed, put, List.map_cons, List.sum_cons, hk, Nat.add_comm (a * 2 ^ lo), h]
  rw [BitVec.ofNat_or, BitVec.or_comm]

end Sys2Proof.Machine
end

