-- ==== Sys2Proof/Laws/State.lean ====
section
/-! SUPPORT. What each named update changes and what it leaves, field by field, so that no later proof unfolds a record
update. -/
namespace Sys2Proof.Machine

/-- A table after one place is changed. -/
@[simp] theorem upd_get {α : Type} {n : Nat} (v : Vector α n) (i j : Fin n) (x : α) :
    (upd v i x).get j = if j = i then x else v.get j := by
  have h : ∀ (w : Vector α n) (k : Fin n), w.get k = w[k.val] := fun _ _ => rfl
  rw [h, h]
  simp only [upd, Vector.getElem_set, Fin.ext_iff, eq_comm]

@[simp] theorem raiseCause_path (c : Cause) (s : State) : (raiseCause c s).path = s.path := rfl
@[simp] theorem raiseCause_asm (c : Cause) (s : State) : (raiseCause c s).asm = s.asm := rfl
@[simp] theorem raiseCause_cls (c : Cause) (s : State) : (raiseCause c s).cls = s.cls := rfl
@[simp] theorem raiseCause_arith (c : Cause) (s : State) : (raiseCause c s).arith = s.arith := rfl
@[simp] theorem raiseCause_settings (c : Cause) (s : State) : (raiseCause c s).settings = s.settings := rfl
@[simp] theorem raiseCause_engine (c : Cause) (s : State) : (raiseCause c s).engine = s.engine := rfl
@[simp] theorem raiseCause_timer (c : Cause) (s : State) : (raiseCause c s).timer = s.timer := rfl
@[simp] theorem raiseCause_balance (c : Cause) (s : State) : (raiseCause c s).balance = s.balance := rfl
@[simp] theorem raiseCause_proving (c : Cause) (s : State) : (raiseCause c s).proving = s.proving := rfl
@[simp] theorem raiseCause_pub (c : Cause) (s : State) : (raiseCause c s).pub = s.pub := rfl
@[simp] theorem raiseCause_cmd (c : Cause) (s : State) : (raiseCause c s).cmd = s.cmd := rfl
@[simp] theorem raiseCause_pending (c : Cause) (s : State) : (raiseCause c s).pending = s.pending := rfl
@[simp] theorem raiseCause_inEffect (c : Cause) (s : State) : (raiseCause c s).inEffect = s.inEffect := rfl

@[simp] theorem joinQueue_asm (it : OwnItem) (s : State) : (joinQueue it s).asm = s.asm := rfl
@[simp] theorem joinQueue_cls (it : OwnItem) (s : State) : (joinQueue it s).cls = s.cls := rfl
@[simp] theorem joinQueue_arith (it : OwnItem) (s : State) : (joinQueue it s).arith = s.arith := rfl
@[simp] theorem joinQueue_settings (it : OwnItem) (s : State) : (joinQueue it s).settings = s.settings := rfl
@[simp] theorem joinQueue_engine (it : OwnItem) (s : State) : (joinQueue it s).engine = s.engine := rfl
@[simp] theorem joinQueue_timer (it : OwnItem) (s : State) : (joinQueue it s).timer = s.timer := rfl
@[simp] theorem joinQueue_balance (it : OwnItem) (s : State) : (joinQueue it s).balance = s.balance := rfl
@[simp] theorem joinQueue_proving (it : OwnItem) (s : State) : (joinQueue it s).proving = s.proving := rfl
@[simp] theorem joinQueue_cmd (it : OwnItem) (s : State) : (joinQueue it s).cmd = s.cmd := rfl
@[simp] theorem joinQueue_irq (it : OwnItem) (s : State) : (joinQueue it s).irq = s.irq := rfl
@[simp] theorem joinQueue_pending (it : OwnItem) (s : State) : (joinQueue it s).pending = s.pending := rfl
@[simp] theorem joinQueue_inEffect (it : OwnItem) (s : State) : (joinQueue it s).inEffect = s.inEffect := rfl

@[simp] theorem leaveQueue_asm (s : State) : (leaveQueue s).asm = s.asm := rfl
@[simp] theorem leaveQueue_cls (s : State) : (leaveQueue s).cls = s.cls := rfl
@[simp] theorem leaveQueue_arith (s : State) : (leaveQueue s).arith = s.arith := rfl
@[simp] theorem leaveQueue_settings (s : State) : (leaveQueue s).settings = s.settings := rfl
@[simp] theorem leaveQueue_engine (s : State) : (leaveQueue s).engine = s.engine := rfl
@[simp] theorem leaveQueue_timer (s : State) : (leaveQueue s).timer = s.timer := rfl
@[simp] theorem leaveQueue_balance (s : State) : (leaveQueue s).balance = s.balance := rfl
@[simp] theorem leaveQueue_proving (s : State) : (leaveQueue s).proving = s.proving := rfl
@[simp] theorem leaveQueue_cmd (s : State) : (leaveQueue s).cmd = s.cmd := rfl
@[simp] theorem leaveQueue_irq (s : State) : (leaveQueue s).irq = s.irq := rfl
@[simp] theorem leaveQueue_pending (s : State) : (leaveQueue s).pending = s.pending := rfl
@[simp] theorem leaveQueue_inEffect (s : State) : (leaveQueue s).inEffect = s.inEffect := rfl

@[simp] theorem setRecord_path (r : Fin 28) (x : PubRecord) (s : State) : (setRecord r x s).path = s.path := rfl
@[simp] theorem setRecord_asm (r : Fin 28) (x : PubRecord) (s : State) : (setRecord r x s).asm = s.asm := rfl
@[simp] theorem setRecord_cls (r : Fin 28) (x : PubRecord) (s : State) : (setRecord r x s).cls = s.cls := rfl
@[simp] theorem setRecord_arith (r : Fin 28) (x : PubRecord) (s : State) : (setRecord r x s).arith = s.arith := rfl
@[simp] theorem setRecord_settings (r : Fin 28) (x : PubRecord) (s : State) : (setRecord r x s).settings = s.settings := rfl
@[simp] theorem setRecord_engine (r : Fin 28) (x : PubRecord) (s : State) : (setRecord r x s).engine = s.engine := rfl
@[simp] theorem setRecord_timer (r : Fin 28) (x : PubRecord) (s : State) : (setRecord r x s).timer = s.timer := rfl
@[simp] theorem setRecord_balance (r : Fin 28) (x : PubRecord) (s : State) : (setRecord r x s).balance = s.balance := rfl
@[simp] theorem setRecord_proving (r : Fin 28) (x : PubRecord) (s : State) : (setRecord r x s).proving = s.proving := rfl
@[simp] theorem setRecord_cmd (r : Fin 28) (x : PubRecord) (s : State) : (setRecord r x s).cmd = s.cmd := rfl
@[simp] theorem setRecord_irq (r : Fin 28) (x : PubRecord) (s : State) : (setRecord r x s).irq = s.irq := rfl
@[simp] theorem setRecord_pending (r : Fin 28) (x : PubRecord) (s : State) : (setRecord r x s).pending = s.pending := rfl
@[simp] theorem setRecord_inEffect (r : Fin 28) (x : PubRecord) (s : State) : (setRecord r x s).inEffect = s.inEffect := rfl

@[simp] theorem setProgress_path (pr : Progress) (s : State) : (setProgress pr s).path = s.path := rfl
@[simp] theorem setProgress_asm (pr : Progress) (s : State) : (setProgress pr s).asm = s.asm := rfl
@[simp] theorem setProgress_cls (pr : Progress) (s : State) : (setProgress pr s).cls = s.cls := rfl
@[simp] theorem setProgress_arith (pr : Progress) (s : State) : (setProgress pr s).arith = s.arith := rfl
@[simp] theorem setProgress_settings (pr : Progress) (s : State) : (setProgress pr s).settings = s.settings := rfl
@[simp] theorem setProgress_engine (pr : Progress) (s : State) : (setProgress pr s).engine = s.engine := rfl
@[simp] theorem setProgress_timer (pr : Progress) (s : State) : (setProgress pr s).timer = s.timer := rfl
@[simp] theorem setProgress_balance (pr : Progress) (s : State) : (setProgress pr s).balance = s.balance := rfl
@[simp] theorem setProgress_proving (pr : Progress) (s : State) : (setProgress pr s).proving = s.proving := rfl
@[simp] theorem setProgress_cmd (pr : Progress) (s : State) : (setProgress pr s).cmd = s.cmd := rfl
@[simp] theorem setProgress_irq (pr : Progress) (s : State) : (setProgress pr s).irq = s.irq := rfl
@[simp] theorem setProgress_pending (pr : Progress) (s : State) : (setProgress pr s).pending = s.pending := rfl
@[simp] theorem setProgress_inEffect (pr : Progress) (s : State) : (setProgress pr s).inEffect = s.inEffect := rfl

@[simp] theorem setSizePending_path (b : Bool) (s : State) : (setSizePending b s).path = s.path := rfl
@[simp] theorem setSizePending_asm (b : Bool) (s : State) : (setSizePending b s).asm = s.asm := rfl
@[simp] theorem setSizePending_cls (b : Bool) (s : State) : (setSizePending b s).cls = s.cls := rfl
@[simp] theorem setSizePending_arith (b : Bool) (s : State) : (setSizePending b s).arith = s.arith := rfl
@[simp] theorem setSizePending_settings (b : Bool) (s : State) : (setSizePending b s).settings = s.settings := rfl
@[simp] theorem setSizePending_engine (b : Bool) (s : State) : (setSizePending b s).engine = s.engine := rfl
@[simp] theorem setSizePending_timer (b : Bool) (s : State) : (setSizePending b s).timer = s.timer := rfl
@[simp] theorem setSizePending_balance (b : Bool) (s : State) : (setSizePending b s).balance = s.balance := rfl
@[simp] theorem setSizePending_proving (b : Bool) (s : State) : (setSizePending b s).proving = s.proving := rfl
@[simp] theorem setSizePending_cmd (b : Bool) (s : State) : (setSizePending b s).cmd = s.cmd := rfl
@[simp] theorem setSizePending_irq (b : Bool) (s : State) : (setSizePending b s).irq = s.irq := rfl
@[simp] theorem setSizePending_pending (b : Bool) (s : State) : (setSizePending b s).pending = s.pending := rfl
@[simp] theorem setSizePending_inEffect (b : Bool) (s : State) : (setSizePending b s).inEffect = s.inEffect := rfl

@[simp] theorem keepReservation_path (s : State) : (keepReservation s).path = s.path := rfl
@[simp] theorem keepReservation_asm (s : State) : (keepReservation s).asm = s.asm := rfl
@[simp] theorem keepReservation_cls (s : State) : (keepReservation s).cls = s.cls := rfl
@[simp] theorem keepReservation_arith (s : State) : (keepReservation s).arith = s.arith := rfl
@[simp] theorem keepReservation_settings (s : State) : (keepReservation s).settings = s.settings := rfl
@[simp] theorem keepReservation_engine (s : State) : (keepReservation s).engine = s.engine := rfl
@[simp] theorem keepReservation_timer (s : State) : (keepReservation s).timer = s.timer := rfl
@[simp] theorem keepReservation_balance (s : State) : (keepReservation s).balance = s.balance := rfl
@[simp] theorem keepReservation_proving (s : State) : (keepReservation s).proving = s.proving := rfl
@[simp] theorem keepReservation_cmd (s : State) : (keepReservation s).cmd = s.cmd := rfl
@[simp] theorem keepReservation_irq (s : State) : (keepReservation s).irq = s.irq := rfl
@[simp] theorem keepReservation_pending (s : State) : (keepReservation s).pending = s.pending := rfl
@[simp] theorem keepReservation_inEffect (s : State) : (keepReservation s).inEffect = s.inEffect := rfl

@[simp] theorem loseReservation_path (s : State) : (loseReservation s).path = s.path := rfl
@[simp] theorem loseReservation_asm (s : State) : (loseReservation s).asm = s.asm := rfl
@[simp] theorem loseReservation_cls (s : State) : (loseReservation s).cls = s.cls := rfl
@[simp] theorem loseReservation_arith (s : State) : (loseReservation s).arith = s.arith := rfl
@[simp] theorem loseReservation_settings (s : State) : (loseReservation s).settings = s.settings := rfl
@[simp] theorem loseReservation_engine (s : State) : (loseReservation s).engine = s.engine := rfl
@[simp] theorem loseReservation_timer (s : State) : (loseReservation s).timer = s.timer := rfl
@[simp] theorem loseReservation_balance (s : State) : (loseReservation s).balance = s.balance := rfl
@[simp] theorem loseReservation_proving (s : State) : (loseReservation s).proving = s.proving := rfl
@[simp] theorem loseReservation_cmd (s : State) : (loseReservation s).cmd = s.cmd := rfl
@[simp] theorem loseReservation_irq (s : State) : (loseReservation s).irq = s.irq := rfl
@[simp] theorem loseReservation_pending (s : State) : (loseReservation s).pending = s.pending := rfl
@[simp] theorem loseReservation_inEffect (s : State) : (loseReservation s).inEffect = s.inEffect := rfl

@[simp] theorem freePort_asm (s : State) : (freePort s).asm = s.asm := rfl
@[simp] theorem freePort_cls (s : State) : (freePort s).cls = s.cls := rfl
@[simp] theorem freePort_arith (s : State) : (freePort s).arith = s.arith := rfl
@[simp] theorem freePort_settings (s : State) : (freePort s).settings = s.settings := rfl
@[simp] theorem freePort_engine (s : State) : (freePort s).engine = s.engine := rfl
@[simp] theorem freePort_timer (s : State) : (freePort s).timer = s.timer := rfl
@[simp] theorem freePort_balance (s : State) : (freePort s).balance = s.balance := rfl
@[simp] theorem freePort_proving (s : State) : (freePort s).proving = s.proving := rfl
@[simp] theorem freePort_pub (s : State) : (freePort s).pub = s.pub := rfl
@[simp] theorem freePort_cmd (s : State) : (freePort s).cmd = s.cmd := rfl
@[simp] theorem freePort_irq (s : State) : (freePort s).irq = s.irq := rfl
@[simp] theorem freePort_pending (s : State) : (freePort s).pending = s.pending := rfl
@[simp] theorem freePort_inEffect (s : State) : (freePort s).inEffect = s.inEffect := rfl

@[simp] theorem unlock_asm (s : State) : (unlock s).asm = s.asm := rfl
@[simp] theorem unlock_cls (s : State) : (unlock s).cls = s.cls := rfl
@[simp] theorem unlock_arith (s : State) : (unlock s).arith = s.arith := rfl
@[simp] theorem unlock_settings (s : State) : (unlock s).settings = s.settings := rfl
@[simp] theorem unlock_engine (s : State) : (unlock s).engine = s.engine := rfl
@[simp] theorem unlock_timer (s : State) : (unlock s).timer = s.timer := rfl
@[simp] theorem unlock_balance (s : State) : (unlock s).balance = s.balance := rfl
@[simp] theorem unlock_proving (s : State) : (unlock s).proving = s.proving := rfl
@[simp] theorem unlock_pub (s : State) : (unlock s).pub = s.pub := rfl
@[simp] theorem unlock_cmd (s : State) : (unlock s).cmd = s.cmd := rfl
@[simp] theorem unlock_irq (s : State) : (unlock s).irq = s.irq := rfl
@[simp] theorem unlock_pending (s : State) : (unlock s).pending = s.pending := rfl
@[simp] theorem unlock_inEffect (s : State) : (unlock s).inEffect = s.inEffect := rfl

@[simp] theorem issue_asm (i : Issuer) (a : Access) (s : State) : (issue i a s).asm = s.asm := rfl
@[simp] theorem issue_cls (i : Issuer) (a : Access) (s : State) : (issue i a s).cls = s.cls := rfl
@[simp] theorem issue_arith (i : Issuer) (a : Access) (s : State) : (issue i a s).arith = s.arith := rfl
@[simp] theorem issue_settings (i : Issuer) (a : Access) (s : State) : (issue i a s).settings = s.settings := rfl
@[simp] theorem issue_engine (i : Issuer) (a : Access) (s : State) : (issue i a s).engine = s.engine := rfl
@[simp] theorem issue_timer (i : Issuer) (a : Access) (s : State) : (issue i a s).timer = s.timer := rfl
@[simp] theorem issue_balance (i : Issuer) (a : Access) (s : State) : (issue i a s).balance = s.balance := rfl
@[simp] theorem issue_proving (i : Issuer) (a : Access) (s : State) : (issue i a s).proving = s.proving := rfl
@[simp] theorem issue_pub (i : Issuer) (a : Access) (s : State) : (issue i a s).pub = s.pub := rfl
@[simp] theorem issue_cmd (i : Issuer) (a : Access) (s : State) : (issue i a s).cmd = s.cmd := rfl
@[simp] theorem issue_irq (i : Issuer) (a : Access) (s : State) : (issue i a s).irq = s.irq := rfl
@[simp] theorem issue_pending (i : Issuer) (a : Access) (s : State) : (issue i a s).pending = s.pending := rfl
@[simp] theorem issue_inEffect (i : Issuer) (a : Access) (s : State) : (issue i a s).inEffect = s.inEffect := rfl

@[simp] theorem becomeCurrent_asm (t : Transaction) (s : State) : (becomeCurrent t s).asm = s.asm := rfl
@[simp] theorem becomeCurrent_cls (t : Transaction) (s : State) : (becomeCurrent t s).cls = s.cls := rfl
@[simp] theorem becomeCurrent_arith (t : Transaction) (s : State) : (becomeCurrent t s).arith = s.arith := rfl
@[simp] theorem becomeCurrent_settings (t : Transaction) (s : State) : (becomeCurrent t s).settings = s.settings := rfl
@[simp] theorem becomeCurrent_engine (t : Transaction) (s : State) : (becomeCurrent t s).engine = s.engine := rfl
@[simp] theorem becomeCurrent_timer (t : Transaction) (s : State) : (becomeCurrent t s).timer = s.timer := rfl
@[simp] theorem becomeCurrent_balance (t : Transaction) (s : State) : (becomeCurrent t s).balance = s.balance := rfl
@[simp] theorem becomeCurrent_proving (t : Transaction) (s : State) : (becomeCurrent t s).proving = s.proving := rfl
@[simp] theorem becomeCurrent_pub (t : Transaction) (s : State) : (becomeCurrent t s).pub = s.pub := rfl
@[simp] theorem becomeCurrent_cmd (t : Transaction) (s : State) : (becomeCurrent t s).cmd = s.cmd := rfl
@[simp] theorem becomeCurrent_irq (t : Transaction) (s : State) : (becomeCurrent t s).irq = s.irq := rfl
@[simp] theorem becomeCurrent_pending (t : Transaction) (s : State) : (becomeCurrent t s).pending = s.pending := rfl
@[simp] theorem becomeCurrent_inEffect (t : Transaction) (s : State) : (becomeCurrent t s).inEffect = s.inEffect := rfl

@[simp] theorem releasePlace_path (s : State) : (releasePlace s).path = s.path := rfl
@[simp] theorem releasePlace_asm (s : State) : (releasePlace s).asm = s.asm := rfl
@[simp] theorem releasePlace_cls (s : State) : (releasePlace s).cls = s.cls := rfl
@[simp] theorem releasePlace_arith (s : State) : (releasePlace s).arith = s.arith := rfl
@[simp] theorem releasePlace_settings (s : State) : (releasePlace s).settings = s.settings := rfl
@[simp] theorem releasePlace_engine (s : State) : (releasePlace s).engine = s.engine := rfl
@[simp] theorem releasePlace_timer (s : State) : (releasePlace s).timer = s.timer := rfl
@[simp] theorem releasePlace_balance (s : State) : (releasePlace s).balance = s.balance := rfl
@[simp] theorem releasePlace_proving (s : State) : (releasePlace s).proving = s.proving := rfl
@[simp] theorem releasePlace_pub (s : State) : (releasePlace s).pub = s.pub := rfl
@[simp] theorem releasePlace_irq (s : State) : (releasePlace s).irq = s.irq := rfl
@[simp] theorem releasePlace_pending (s : State) : (releasePlace s).pending = s.pending := rfl
@[simp] theorem releasePlace_inEffect (s : State) : (releasePlace s).inEffect = s.inEffect := rfl

@[simp] theorem setPoint_path (p : Fin 16) (r : PointRecord) (s : State) : (setPoint p r s).path = s.path := rfl
@[simp] theorem setPoint_asm (p : Fin 16) (r : PointRecord) (s : State) : (setPoint p r s).asm = s.asm := rfl
@[simp] theorem setPoint_cls (p : Fin 16) (r : PointRecord) (s : State) : (setPoint p r s).cls = s.cls := rfl
@[simp] theorem setPoint_arith (p : Fin 16) (r : PointRecord) (s : State) : (setPoint p r s).arith = s.arith := rfl
@[simp] theorem setPoint_settings (p : Fin 16) (r : PointRecord) (s : State) : (setPoint p r s).settings = s.settings := rfl
@[simp] theorem setPoint_timer (p : Fin 16) (r : PointRecord) (s : State) : (setPoint p r s).timer = s.timer := rfl
@[simp] theorem setPoint_balance (p : Fin 16) (r : PointRecord) (s : State) : (setPoint p r s).balance = s.balance := rfl
@[simp] theorem setPoint_proving (p : Fin 16) (r : PointRecord) (s : State) : (setPoint p r s).proving = s.proving := rfl
@[simp] theorem setPoint_pub (p : Fin 16) (r : PointRecord) (s : State) : (setPoint p r s).pub = s.pub := rfl
@[simp] theorem setPoint_cmd (p : Fin 16) (r : PointRecord) (s : State) : (setPoint p r s).cmd = s.cmd := rfl
@[simp] theorem setPoint_irq (p : Fin 16) (r : PointRecord) (s : State) : (setPoint p r s).irq = s.irq := rfl
@[simp] theorem setPoint_pending (p : Fin 16) (r : PointRecord) (s : State) : (setPoint p r s).pending = s.pending := rfl
@[simp] theorem setPoint_inEffect (p : Fin 16) (r : PointRecord) (s : State) : (setPoint p r s).inEffect = s.inEffect := rfl

@[simp] theorem modifyPoint_path (p : Fin 16) (f : PointRecord → PointRecord) (s : State) : (modifyPoint p f s).path = s.path := rfl
@[simp] theorem modifyPoint_asm (p : Fin 16) (f : PointRecord → PointRecord) (s : State) : (modifyPoint p f s).asm = s.asm := rfl
@[simp] theorem modifyPoint_cls (p : Fin 16) (f : PointRecord → PointRecord) (s : State) : (modifyPoint p f s).cls = s.cls := rfl
@[simp] theorem modifyPoint_arith (p : Fin 16) (f : PointRecord → PointRecord) (s : State) : (modifyPoint p f s).arith = s.arith := rfl
@[simp] theorem modifyPoint_settings (p : Fin 16) (f : PointRecord → PointRecord) (s : State) : (modifyPoint p f s).settings = s.settings := rfl
@[simp] theorem modifyPoint_timer (p : Fin 16) (f : PointRecord → PointRecord) (s : State) : (modifyPoint p f s).timer = s.timer := rfl
@[simp] theorem modifyPoint_balance (p : Fin 16) (f : PointRecord → PointRecord) (s : State) : (modifyPoint p f s).balance = s.balance := rfl
@[simp] theorem modifyPoint_proving (p : Fin 16) (f : PointRecord → PointRecord) (s : State) : (modifyPoint p f s).proving = s.proving := rfl
@[simp] theorem modifyPoint_pub (p : Fin 16) (f : PointRecord → PointRecord) (s : State) : (modifyPoint p f s).pub = s.pub := rfl
@[simp] theorem modifyPoint_cmd (p : Fin 16) (f : PointRecord → PointRecord) (s : State) : (modifyPoint p f s).cmd = s.cmd := rfl
@[simp] theorem modifyPoint_irq (p : Fin 16) (f : PointRecord → PointRecord) (s : State) : (modifyPoint p f s).irq = s.irq := rfl
@[simp] theorem modifyPoint_pending (p : Fin 16) (f : PointRecord → PointRecord) (s : State) : (modifyPoint p f s).pending = s.pending := rfl
@[simp] theorem modifyPoint_inEffect (p : Fin 16) (f : PointRecord → PointRecord) (s : State) : (modifyPoint p f s).inEffect = s.inEffect := rfl

@[simp] theorem setSlot_path (r : Fin 8) (x : RemoteSlot) (s : State) : (setSlot r x s).path = s.path := rfl
@[simp] theorem setSlot_asm (r : Fin 8) (x : RemoteSlot) (s : State) : (setSlot r x s).asm = s.asm := rfl
@[simp] theorem setSlot_cls (r : Fin 8) (x : RemoteSlot) (s : State) : (setSlot r x s).cls = s.cls := rfl
@[simp] theorem setSlot_arith (r : Fin 8) (x : RemoteSlot) (s : State) : (setSlot r x s).arith = s.arith := rfl
@[simp] theorem setSlot_settings (r : Fin 8) (x : RemoteSlot) (s : State) : (setSlot r x s).settings = s.settings := rfl
@[simp] theorem setSlot_timer (r : Fin 8) (x : RemoteSlot) (s : State) : (setSlot r x s).timer = s.timer := rfl
@[simp] theorem setSlot_balance (r : Fin 8) (x : RemoteSlot) (s : State) : (setSlot r x s).balance = s.balance := rfl
@[simp] theorem setSlot_proving (r : Fin 8) (x : RemoteSlot) (s : State) : (setSlot r x s).proving = s.proving := rfl
@[simp] theorem setSlot_pub (r : Fin 8) (x : RemoteSlot) (s : State) : (setSlot r x s).pub = s.pub := rfl
@[simp] theorem setSlot_cmd (r : Fin 8) (x : RemoteSlot) (s : State) : (setSlot r x s).cmd = s.cmd := rfl
@[simp] theorem setSlot_irq (r : Fin 8) (x : RemoteSlot) (s : State) : (setSlot r x s).irq = s.irq := rfl
@[simp] theorem setSlot_pending (r : Fin 8) (x : RemoteSlot) (s : State) : (setSlot r x s).pending = s.pending := rfl
@[simp] theorem setSlot_inEffect (r : Fin 8) (x : RemoteSlot) (s : State) : (setSlot r x s).inEffect = s.inEffect := rfl

@[simp] theorem setJob_path (j : Option Job) (s : State) : (setJob j s).path = s.path := rfl
@[simp] theorem setJob_asm (j : Option Job) (s : State) : (setJob j s).asm = s.asm := rfl
@[simp] theorem setJob_cls (j : Option Job) (s : State) : (setJob j s).cls = s.cls := rfl
@[simp] theorem setJob_arith (j : Option Job) (s : State) : (setJob j s).arith = s.arith := rfl
@[simp] theorem setJob_settings (j : Option Job) (s : State) : (setJob j s).settings = s.settings := rfl
@[simp] theorem setJob_timer (j : Option Job) (s : State) : (setJob j s).timer = s.timer := rfl
@[simp] theorem setJob_balance (j : Option Job) (s : State) : (setJob j s).balance = s.balance := rfl
@[simp] theorem setJob_proving (j : Option Job) (s : State) : (setJob j s).proving = s.proving := rfl
@[simp] theorem setJob_pub (j : Option Job) (s : State) : (setJob j s).pub = s.pub := rfl
@[simp] theorem setJob_cmd (j : Option Job) (s : State) : (setJob j s).cmd = s.cmd := rfl
@[simp] theorem setJob_irq (j : Option Job) (s : State) : (setJob j s).irq = s.irq := rfl
@[simp] theorem setJob_pending (j : Option Job) (s : State) : (setJob j s).pending = s.pending := rfl
@[simp] theorem setJob_inEffect (j : Option Job) (s : State) : (setJob j s).inEffect = s.inEffect := rfl

@[simp] theorem modifyJob_path (f : Job → Job) (s : State) : (modifyJob f s).path = s.path := rfl
@[simp] theorem modifyJob_asm (f : Job → Job) (s : State) : (modifyJob f s).asm = s.asm := rfl
@[simp] theorem modifyJob_cls (f : Job → Job) (s : State) : (modifyJob f s).cls = s.cls := rfl
@[simp] theorem modifyJob_arith (f : Job → Job) (s : State) : (modifyJob f s).arith = s.arith := rfl
@[simp] theorem modifyJob_settings (f : Job → Job) (s : State) : (modifyJob f s).settings = s.settings := rfl
@[simp] theorem modifyJob_timer (f : Job → Job) (s : State) : (modifyJob f s).timer = s.timer := rfl
@[simp] theorem modifyJob_balance (f : Job → Job) (s : State) : (modifyJob f s).balance = s.balance := rfl
@[simp] theorem modifyJob_proving (f : Job → Job) (s : State) : (modifyJob f s).proving = s.proving := rfl
@[simp] theorem modifyJob_pub (f : Job → Job) (s : State) : (modifyJob f s).pub = s.pub := rfl
@[simp] theorem modifyJob_cmd (f : Job → Job) (s : State) : (modifyJob f s).cmd = s.cmd := rfl
@[simp] theorem modifyJob_irq (f : Job → Job) (s : State) : (modifyJob f s).irq = s.irq := rfl
@[simp] theorem modifyJob_pending (f : Job → Job) (s : State) : (modifyJob f s).pending = s.pending := rfl
@[simp] theorem modifyJob_inEffect (f : Job → Job) (s : State) : (modifyJob f s).inEffect = s.inEffect := rfl

@[simp] theorem setAssembly_path (tag : Fin 8) (r : Option OpenFrame) (s : State) : (setAssembly tag r s).path = s.path := rfl
@[simp] theorem setAssembly_cls (tag : Fin 8) (r : Option OpenFrame) (s : State) : (setAssembly tag r s).cls = s.cls := rfl
@[simp] theorem setAssembly_arith (tag : Fin 8) (r : Option OpenFrame) (s : State) : (setAssembly tag r s).arith = s.arith := rfl
@[simp] theorem setAssembly_settings (tag : Fin 8) (r : Option OpenFrame) (s : State) : (setAssembly tag r s).settings = s.settings := rfl
@[simp] theorem setAssembly_engine (tag : Fin 8) (r : Option OpenFrame) (s : State) : (setAssembly tag r s).engine = s.engine := rfl
@[simp] theorem setAssembly_timer (tag : Fin 8) (r : Option OpenFrame) (s : State) : (setAssembly tag r s).timer = s.timer := rfl
@[simp] theorem setAssembly_balance (tag : Fin 8) (r : Option OpenFrame) (s : State) : (setAssembly tag r s).balance = s.balance := rfl
@[simp] theorem setAssembly_proving (tag : Fin 8) (r : Option OpenFrame) (s : State) : (setAssembly tag r s).proving = s.proving := rfl
@[simp] theorem setAssembly_pub (tag : Fin 8) (r : Option OpenFrame) (s : State) : (setAssembly tag r s).pub = s.pub := rfl
@[simp] theorem setAssembly_cmd (tag : Fin 8) (r : Option OpenFrame) (s : State) : (setAssembly tag r s).cmd = s.cmd := rfl
@[simp] theorem setAssembly_irq (tag : Fin 8) (r : Option OpenFrame) (s : State) : (setAssembly tag r s).irq = s.irq := rfl
@[simp] theorem setAssembly_pending (tag : Fin 8) (r : Option OpenFrame) (s : State) : (setAssembly tag r s).pending = s.pending := rfl
@[simp] theorem setAssembly_inEffect (tag : Fin 8) (r : Option OpenFrame) (s : State) : (setAssembly tag r s).inEffect = s.inEffect := rfl

@[simp] theorem setSegment_path (g : Fin 8) (x : Segment) (s : State) : (setSegment g x s).path = s.path := rfl
@[simp] theorem setSegment_asm (g : Fin 8) (x : Segment) (s : State) : (setSegment g x s).asm = s.asm := rfl
@[simp] theorem setSegment_cls (g : Fin 8) (x : Segment) (s : State) : (setSegment g x s).cls = s.cls := rfl
@[simp] theorem setSegment_arith (g : Fin 8) (x : Segment) (s : State) : (setSegment g x s).arith = s.arith := rfl
@[simp] theorem setSegment_settings (g : Fin 8) (x : Segment) (s : State) : (setSegment g x s).settings = s.settings := rfl
@[simp] theorem setSegment_engine (g : Fin 8) (x : Segment) (s : State) : (setSegment g x s).engine = s.engine := rfl
@[simp] theorem setSegment_timer (g : Fin 8) (x : Segment) (s : State) : (setSegment g x s).timer = s.timer := rfl
@[simp] theorem setSegment_proving (g : Fin 8) (x : Segment) (s : State) : (setSegment g x s).proving = s.proving := rfl
@[simp] theorem setSegment_pub (g : Fin 8) (x : Segment) (s : State) : (setSegment g x s).pub = s.pub := rfl
@[simp] theorem setSegment_cmd (g : Fin 8) (x : Segment) (s : State) : (setSegment g x s).cmd = s.cmd := rfl
@[simp] theorem setSegment_irq (g : Fin 8) (x : Segment) (s : State) : (setSegment g x s).irq = s.irq := rfl
@[simp] theorem setSegment_pending (g : Fin 8) (x : Segment) (s : State) : (setSegment g x s).pending = s.pending := rfl
@[simp] theorem setSegment_inEffect (g : Fin 8) (x : Segment) (s : State) : (setSegment g x s).inEffect = s.inEffect := rfl

@[simp] theorem setArmed_path (e : Fin 64) (b : Bool) (s : State) : (setArmed e b s).path = s.path := rfl
@[simp] theorem setArmed_asm (e : Fin 64) (b : Bool) (s : State) : (setArmed e b s).asm = s.asm := rfl
@[simp] theorem setArmed_arith (e : Fin 64) (b : Bool) (s : State) : (setArmed e b s).arith = s.arith := rfl
@[simp] theorem setArmed_settings (e : Fin 64) (b : Bool) (s : State) : (setArmed e b s).settings = s.settings := rfl
@[simp] theorem setArmed_engine (e : Fin 64) (b : Bool) (s : State) : (setArmed e b s).engine = s.engine := rfl
@[simp] theorem setArmed_timer (e : Fin 64) (b : Bool) (s : State) : (setArmed e b s).timer = s.timer := rfl
@[simp] theorem setArmed_balance (e : Fin 64) (b : Bool) (s : State) : (setArmed e b s).balance = s.balance := rfl
@[simp] theorem setArmed_proving (e : Fin 64) (b : Bool) (s : State) : (setArmed e b s).proving = s.proving := rfl
@[simp] theorem setArmed_pub (e : Fin 64) (b : Bool) (s : State) : (setArmed e b s).pub = s.pub := rfl
@[simp] theorem setArmed_cmd (e : Fin 64) (b : Bool) (s : State) : (setArmed e b s).cmd = s.cmd := rfl
@[simp] theorem setArmed_irq (e : Fin 64) (b : Bool) (s : State) : (setArmed e b s).irq = s.irq := rfl
@[simp] theorem setArmed_pending (e : Fin 64) (b : Bool) (s : State) : (setArmed e b s).pending = s.pending := rfl
@[simp] theorem setArmed_inEffect (e : Fin 64) (b : Bool) (s : State) : (setArmed e b s).inEffect = s.inEffect := rfl

@[simp] theorem setProving_path (r : ProvingState) (s : State) : (setProving r s).path = s.path := rfl
@[simp] theorem setProving_asm (r : ProvingState) (s : State) : (setProving r s).asm = s.asm := rfl
@[simp] theorem setProving_cls (r : ProvingState) (s : State) : (setProving r s).cls = s.cls := rfl
@[simp] theorem setProving_arith (r : ProvingState) (s : State) : (setProving r s).arith = s.arith := rfl
@[simp] theorem setProving_settings (r : ProvingState) (s : State) : (setProving r s).settings = s.settings := rfl
@[simp] theorem setProving_engine (r : ProvingState) (s : State) : (setProving r s).engine = s.engine := rfl
@[simp] theorem setProving_timer (r : ProvingState) (s : State) : (setProving r s).timer = s.timer := rfl
@[simp] theorem setProving_balance (r : ProvingState) (s : State) : (setProving r s).balance = s.balance := rfl
@[simp] theorem setProving_pub (r : ProvingState) (s : State) : (setProving r s).pub = s.pub := rfl
@[simp] theorem setProving_cmd (r : ProvingState) (s : State) : (setProving r s).cmd = s.cmd := rfl
@[simp] theorem setProving_irq (r : ProvingState) (s : State) : (setProving r s).irq = s.irq := rfl
@[simp] theorem setProving_pending (r : ProvingState) (s : State) : (setProving r s).pending = s.pending := rfl
@[simp] theorem setProving_inEffect (r : ProvingState) (s : State) : (setProving r s).inEffect = s.inEffect := rfl

@[simp] theorem complete_asm (code : Code) (data : List Word) (s : State) : (complete code data s).asm = s.asm := by unfold complete; split <;> rfl
@[simp] theorem complete_cls (code : Code) (data : List Word) (s : State) : (complete code data s).cls = s.cls := by unfold complete; split <;> rfl
@[simp] theorem complete_arith (code : Code) (data : List Word) (s : State) : (complete code data s).arith = s.arith := by unfold complete; split <;> rfl
@[simp] theorem complete_settings (code : Code) (data : List Word) (s : State) : (complete code data s).settings = s.settings := by unfold complete; split <;> rfl
@[simp] theorem complete_engine (code : Code) (data : List Word) (s : State) : (complete code data s).engine = s.engine := by unfold complete; split <;> rfl
@[simp] theorem complete_timer (code : Code) (data : List Word) (s : State) : (complete code data s).timer = s.timer := by unfold complete; split <;> rfl
@[simp] theorem complete_balance (code : Code) (data : List Word) (s : State) : (complete code data s).balance = s.balance := by unfold complete; split <;> rfl
@[simp] theorem complete_proving (code : Code) (data : List Word) (s : State) : (complete code data s).proving = s.proving := by unfold complete; split <;> rfl
@[simp] theorem complete_pub (code : Code) (data : List Word) (s : State) : (complete code data s).pub = s.pub := by unfold complete; split <;> rfl
@[simp] theorem complete_cmd (code : Code) (data : List Word) (s : State) : (complete code data s).cmd = s.cmd := by unfold complete; split <;> rfl
@[simp] theorem complete_irq (code : Code) (data : List Word) (s : State) : (complete code data s).irq = s.irq := by unfold complete; split <;> rfl
@[simp] theorem complete_pending (code : Code) (data : List Word) (s : State) : (complete code data s).pending = s.pending := by unfold complete; split <;> rfl
@[simp] theorem complete_inEffect (code : Code) (data : List Word) (s : State) : (complete code data s).inEffect = s.inEffect := by simp [State.inEffect]

@[simp] theorem setPhase_asm (p : Phase) (s : State) : (setPhase p s).asm = s.asm := by unfold setPhase; split <;> rfl
@[simp] theorem setPhase_cls (p : Phase) (s : State) : (setPhase p s).cls = s.cls := by unfold setPhase; split <;> rfl
@[simp] theorem setPhase_arith (p : Phase) (s : State) : (setPhase p s).arith = s.arith := by unfold setPhase; split <;> rfl
@[simp] theorem setPhase_settings (p : Phase) (s : State) : (setPhase p s).settings = s.settings := by unfold setPhase; split <;> rfl
@[simp] theorem setPhase_engine (p : Phase) (s : State) : (setPhase p s).engine = s.engine := by unfold setPhase; split <;> rfl
@[simp] theorem setPhase_timer (p : Phase) (s : State) : (setPhase p s).timer = s.timer := by unfold setPhase; split <;> rfl
@[simp] theorem setPhase_balance (p : Phase) (s : State) : (setPhase p s).balance = s.balance := by unfold setPhase; split <;> rfl
@[simp] theorem setPhase_proving (p : Phase) (s : State) : (setPhase p s).proving = s.proving := by unfold setPhase; split <;> rfl
@[simp] theorem setPhase_pub (p : Phase) (s : State) : (setPhase p s).pub = s.pub := by unfold setPhase; split <;> rfl
@[simp] theorem setPhase_cmd (p : Phase) (s : State) : (setPhase p s).cmd = s.cmd := by unfold setPhase; split <;> rfl
@[simp] theorem setPhase_irq (p : Phase) (s : State) : (setPhase p s).irq = s.irq := by unfold setPhase; split <;> rfl
@[simp] theorem setPhase_pending (p : Phase) (s : State) : (setPhase p s).pending = s.pending := by unfold setPhase; split <;> rfl
@[simp] theorem setPhase_inEffect (p : Phase) (s : State) : (setPhase p s).inEffect = s.inEffect := by simp [State.inEffect]

@[simp] theorem mark_path (t : Target) (s : State) : (mark t s).path = s.path := by
  unfold mark; repeat' split
  all_goals rfl
@[simp] theorem mark_asm (t : Target) (s : State) : (mark t s).asm = s.asm := by
  unfold mark; repeat' split
  all_goals rfl
@[simp] theorem mark_cls (t : Target) (s : State) : (mark t s).cls = s.cls := by
  unfold mark; repeat' split
  all_goals rfl
@[simp] theorem mark_arith (t : Target) (s : State) : (mark t s).arith = s.arith := by
  unfold mark; repeat' split
  all_goals rfl
@[simp] theorem mark_settings (t : Target) (s : State) : (mark t s).settings = s.settings := by
  unfold mark; repeat' split
  all_goals rfl
@[simp] theorem mark_timer (t : Target) (s : State) : (mark t s).timer = s.timer := by
  unfold mark; repeat' split
  all_goals rfl
@[simp] theorem mark_balance (t : Target) (s : State) : (mark t s).balance = s.balance := by
  unfold mark; repeat' split
  all_goals rfl
@[simp] theorem mark_proving (t : Target) (s : State) : (mark t s).proving = s.proving := by
  unfold mark; repeat' split
  all_goals rfl
@[simp] theorem mark_pub (t : Target) (s : State) : (mark t s).pub = s.pub := by
  unfold mark; repeat' split
  all_goals rfl
@[simp] theorem mark_cmd (t : Target) (s : State) : (mark t s).cmd = s.cmd := by
  unfold mark; repeat' split
  all_goals rfl
@[simp] theorem mark_irq (t : Target) (s : State) : (mark t s).irq = s.irq := by
  unfold mark; repeat' split
  all_goals rfl
@[simp] theorem mark_pending (t : Target) (s : State) : (mark t s).pending = s.pending := by
  unfold mark; repeat' split
  all_goals rfl
@[simp] theorem mark_inEffect (t : Target) (s : State) : (mark t s).inEffect = s.inEffect := by simp [State.inEffect]

@[simp] theorem raiseHit_path (c : Option (Fin 32)) (s : State) : (raiseHit c s).path = s.path := by unfold raiseHit; split <;> rfl
@[simp] theorem raiseHit_asm (c : Option (Fin 32)) (s : State) : (raiseHit c s).asm = s.asm := by unfold raiseHit; split <;> rfl
@[simp] theorem raiseHit_arith (c : Option (Fin 32)) (s : State) : (raiseHit c s).arith = s.arith := by unfold raiseHit; split <;> rfl
@[simp] theorem raiseHit_settings (c : Option (Fin 32)) (s : State) : (raiseHit c s).settings = s.settings := by unfold raiseHit; split <;> rfl
@[simp] theorem raiseHit_engine (c : Option (Fin 32)) (s : State) : (raiseHit c s).engine = s.engine := by unfold raiseHit; split <;> rfl
@[simp] theorem raiseHit_timer (c : Option (Fin 32)) (s : State) : (raiseHit c s).timer = s.timer := by unfold raiseHit; split <;> rfl
@[simp] theorem raiseHit_balance (c : Option (Fin 32)) (s : State) : (raiseHit c s).balance = s.balance := by unfold raiseHit; split <;> rfl
@[simp] theorem raiseHit_proving (c : Option (Fin 32)) (s : State) : (raiseHit c s).proving = s.proving := by unfold raiseHit; split <;> rfl
@[simp] theorem raiseHit_pub (c : Option (Fin 32)) (s : State) : (raiseHit c s).pub = s.pub := by unfold raiseHit; split <;> rfl
@[simp] theorem raiseHit_cmd (c : Option (Fin 32)) (s : State) : (raiseHit c s).cmd = s.cmd := by unfold raiseHit; split <;> rfl
@[simp] theorem raiseHit_irq (c : Option (Fin 32)) (s : State) : (raiseHit c s).irq = s.irq := by unfold raiseHit; split <;> rfl
@[simp] theorem raiseHit_pending (c : Option (Fin 32)) (s : State) : (raiseHit c s).pending = s.pending := by unfold raiseHit; split <;> rfl
@[simp] theorem raiseHit_inEffect (c : Option (Fin 32)) (s : State) : (raiseHit c s).inEffect = s.inEffect := by simp [State.inEffect]

/-! ### The field an update changes -/

@[simp] theorem raiseCause_irq (c : Cause) (s : State) :
    (raiseCause c s).irq = s.irq ||| (c.mask &&& s.inEffect.causeEnable) := rfl
@[simp] theorem joinQueue_queue (it : OwnItem) (s : State) : (joinQueue it s).pub.queue = s.pub.queue ++ [it] := rfl
@[simp] theorem joinQueue_begun (it : OwnItem) (s : State) : (joinQueue it s).pub.begun = s.pub.begun := rfl
@[simp] theorem joinQueue_records (it : OwnItem) (s : State) : (joinQueue it s).pub.records = s.pub.records := rfl
@[simp] theorem joinQueue_digest (it : OwnItem) (s : State) : (joinQueue it s).pub.digest = s.pub.digest := rfl
@[simp] theorem joinQueue_held (it : OwnItem) (s : State) : (joinQueue it s).pub.heldDigests = s.pub.heldDigests := rfl
@[simp] theorem joinQueue_owedStatus (it : OwnItem) (s : State) : (joinQueue it s).pub.owedStatus = s.pub.owedStatus := rfl
@[simp] theorem joinQueue_yield (it : OwnItem) (s : State) :
    (joinQueue it s).path.yield = (s.path.yield || decide (24 ≤ s.pub.queue.length + 1)) := rfl
@[simp] theorem leaveQueue_queue (s : State) : (leaveQueue s).pub.queue = s.pub.queue.tail := rfl
@[simp] theorem leaveQueue_begun (s : State) : (leaveQueue s).pub.begun = none := rfl
@[simp] theorem leaveQueue_records (s : State) : (leaveQueue s).pub.records = s.pub.records := rfl
@[simp] theorem leaveQueue_digest (s : State) : (leaveQueue s).pub.digest = s.pub.digest := rfl
@[simp] theorem leaveQueue_yield (s : State) :
    (leaveQueue s).path.yield = (s.path.yield && decide (8 < s.pub.queue.tail.length)) := rfl
@[simp] theorem setRecord_queue (r : Fin 28) (x : PubRecord) (s : State) : (setRecord r x s).pub.queue = s.pub.queue := rfl
@[simp] theorem setRecord_begun (r : Fin 28) (x : PubRecord) (s : State) : (setRecord r x s).pub.begun = s.pub.begun := rfl
@[simp] theorem setRecord_digest (r : Fin 28) (x : PubRecord) (s : State) : (setRecord r x s).pub.digest = s.pub.digest := rfl
@[simp] theorem setRecord_records (r : Fin 28) (x : PubRecord) (s : State) :
    (setRecord r x s).pub.records = upd s.pub.records r x := rfl
@[simp] theorem setAssembly_records (tag : Fin 8) (r : Option OpenFrame) (s : State) :
    (setAssembly tag r s).asm.records = upd s.asm.records tag r := rfl
@[simp] theorem setPoint_points (p : Fin 16) (r : PointRecord) (s : State) :
    (setPoint p r s).engine.points = upd s.engine.points p r := rfl
@[simp] theorem modifyPoint_points (p : Fin 16) (f : PointRecord → PointRecord) (s : State) :
    (modifyPoint p f s).engine.points = upd s.engine.points p (f (s.engine.points.get p)) := rfl
@[simp] theorem setSlot_slots (r : Fin 8) (x : RemoteSlot) (s : State) :
    (setSlot r x s).engine.slots = upd s.engine.slots r x := rfl
@[simp] theorem setSegment_segments (g : Fin 8) (x : Segment) (s : State) :
    (setSegment g x s).balance.segments = upd s.balance.segments g x := rfl
@[simp] theorem setArmed_armed (e : Fin 64) (b : Bool) (s : State) :
    (setArmed e b s).cls.armed = upd s.cls.armed e b := rfl
@[simp] theorem setProving_proving (r : ProvingState) (s : State) : (setProving r s).proving = r := rfl
@[simp] theorem setJob_job (j : Option Job) (s : State) : (setJob j s).engine.job = j := rfl
@[simp] theorem setJob_workQueue (j : Option Job) (s : State) :
    (setJob j s).engine.workQueue = s.engine.workQueue := rfl
@[simp] theorem modifyJob_workQueue (f : Job → Job) (s : State) :
    (modifyJob f s).engine.workQueue = s.engine.workQueue := rfl
@[simp] theorem mark_workQueue (t : Target) (s : State) : (mark t s).engine.workQueue = s.engine.workQueue := by
  unfold mark; repeat' split
  all_goals rfl
@[simp] theorem mark_processed (t : Target) (s : State) : (mark t s).engine.processed = s.engine.processed := by
  unfold mark; repeat' split
  all_goals rfl
@[simp] theorem mark_job (t : Target) (s : State) : (mark t s).engine.job = s.engine.job := by
  unfold mark; repeat' split
  all_goals rfl

/-- The current transaction is given its completion. -/
theorem complete_path (code : Code) (data : List Word) (s : State) (c : Current) (h : s.path.current = some c) :
    (complete code data s).path = { s.path with current := none, completion := some ⟨c.txn.tag, code, data⟩ } := by
  simp [complete, h]

theorem setPhase_path (p : Phase) (s : State) (c : Current) (h : s.path.current = some c) :
    (setPhase p s).path = { s.path with current := some { c with phase := p } } := by
  simp [setPhase, h]

end Sys2Proof.Machine
end

