-- ==== Sys2Proof/Laws/Ops.lean ====
section
/-! SUPPORT. What the shared operations can do: every reporting operation leaves all but the Publisher, the pending causes and
the yield indication as they were, the engine's run keeps whatever its acts and stages keep, and the end of a DIGEST item finds its
entry. -/
namespace Sys2Proof.Machine

theorem ReportsFrom.refl (s : State) : ReportsFrom s s := by constructor <;> rfl

theorem ReportsFrom.trans {a b c : State} (h : ReportsFrom a b) (k : ReportsFrom b c) : ReportsFrom a c := by
  constructor
  · rw [k.path, h.path]
  · rw [k.asm, h.asm]
  · rw [k.cls, h.cls]
  · rw [k.arith, h.arith]
  · rw [k.settings, h.settings]
  · rw [k.engine, h.engine]
  · rw [k.timer, h.timer]
  · rw [k.balance, h.balance]
  · rw [k.proving, h.proving]
  · rw [k.cmd, h.cmd]
  · rw [k.pending, h.pending]

theorem raiseCause_reports (c : Cause) (s : State) : ReportsFrom s (raiseCause c s) := by constructor <;> rfl

theorem joinQueue_reports (it : OwnItem) (s : State) : ReportsFrom s (joinQueue it s) := by constructor <;> rfl

theorem leaveQueue_reports (s : State) : ReportsFrom s (leaveQueue s) := by constructor <;> rfl

theorem setRecord_reports (r : Fin 28) (x : PubRecord) (s : State) : ReportsFrom s (setRecord r x s) := by
  constructor <;> rfl

theorem setJob_reports (j : Option Job) (s : State) : ReportsFrom s (setJob j s) := by constructor <;> rfl

theorem requestPublication_reports (r : Fin 28) (s : State) : ReportsFrom s (requestPublication r s) := by
  unfold requestPublication
  dsimp only
  split
  · split
    · exact (joinQueue_reports _ s).trans (setRecord_reports _ _ _)
    · exact setRecord_reports _ _ _
  · constructor <;> rfl
  · exact ReportsFrom.refl s

theorem offerDigest_reports (by_ : Requester) (position : Nat) (words : List Word) (s : State) :
    ReportsFrom s (offerDigest by_ position words s) := by
  unfold offerDigest
  split
  · exact joinQueue_reports _ _
  · constructor <;> rfl

theorem checkThreshold_reports (s : State) : ReportsFrom s (checkThreshold s) := by
  unfold checkThreshold
  split
  · exact raiseCause_reports _ _
  · exact ReportsFrom.refl s

theorem reserve_reports (by_ : Requester) (kind : DigestKind) (body : List Word) (s : State) :
    ReportsFrom s (reserve by_ kind body s) := by
  unfold reserve
  split
  · have h : ReportsFrom s (keepReservation s) := by constructor <;> rfl
    exact (h.trans (offerDigest_reports _ _ _ _)).trans (checkThreshold_reports _)
  · have h : ReportsFrom s (loseReservation s) := by constructor <;> rfl
    exact h.trans (checkThreshold_reports _)

/-- A capture changes the access fault record as R21 states, and nothing else but reports. -/
theorem captureAccess_spec (tag : BitVec 4) (kind : FaultKind) (size : Size) (addr : Addr) (reason : FaultReason)
    (s : State) :
    ReportsFrom { s with path := { s.path with fault := some (afterCapture s.path.fault tag kind size addr reason) } }
      (captureAccess tag kind size addr reason s) := by
  unfold captureAccess
  split
  next h =>
    simp only [h, afterCapture]
    exact ((raiseCause_reports _ _).trans (reserve_reports _ _ _ _)).trans (requestPublication_reports _ _)
  next f h =>
    simp only [h, afterCapture]
    split
    next hf =>
      rw [← hf, ← h]
      exact ReportsFrom.refl s
    next hf => exact requestPublication_reports _ _

theorem complete_reports {e t : State} (h : ReportsFrom e t) (code : Code) (data : List Word) :
    ReportsFrom (complete code data e) (complete code data t) := by
  have hc : t.path.current = e.path.current := by rw [h.path]
  have hp := h.path
  unfold complete
  rw [hc]
  split
  · exact h
  · constructor
    · simp only; rw [hp]
    all_goals first
      | exact h.asm | exact h.cls | exact h.arith | exact h.settings | exact h.engine | exact h.timer
      | exact h.balance | exact h.proving | exact h.cmd | exact h.pending

theorem digest_mem_replaceContent (r : Fin 28) (content : List Word) (position : Nat) (words : List Word) (begun : Bool)
    (queue : List OwnItem) (h : OwnItem.digest position words ∈ queue) :
    OwnItem.digest position words ∈ replaceContent r content begun queue := by
  have hmap (q : List OwnItem) (hq : OwnItem.digest position words ∈ q) :
      OwnItem.digest position words ∈ replaceContent r content false q := by
    simp only [replaceContent]
    exact List.mem_map.mpr ⟨_, hq, rfl⟩
  cases begun with
  | false => exact hmap queue h
  | true =>
    cases queue with
    | nil => exact absurd h List.not_mem_nil
    | cons it rest =>
      rcases List.mem_cons.mp h with h | h
      · exact h ▸ List.mem_cons_self
      · exact List.mem_cons_of_mem _ (hmap rest h)

/-- What a publication request leaves of the Publisher, that it is asked for, and that DIGEST items stay queued. -/
theorem requestPublication_pub (r : Fin 28) (s : State) :
    (requestPublication r s).pub.digest = s.pub.digest ∧ (requestPublication r s).pub.digestLost = s.pub.digestLost
      ∧ (requestPublication r s).pub.heldDigests = s.pub.heldDigests ∧ (requestPublication r s).irq = s.irq
      ∧ Asked r (requestPublication r s)
      ∧ ∀ position words, OwnItem.digest position words ∈ s.pub.queue →
          OwnItem.digest position words ∈ (requestPublication r s).pub.queue := by
  unfold requestPublication Asked
  dsimp only
  split
  · split
    · refine ⟨rfl, rfl, rfl, rfl, by simp [setRecord], fun _ _ h => ?_⟩
      exact List.mem_append_left _ h
    · exact ⟨rfl, rfl, rfl, rfl, by simp [setRecord], fun _ _ h => h⟩
  next h =>
    refine ⟨rfl, rfl, rfl, rfl, by simp [h], fun _ _ hq => ?_⟩
    exact digest_mem_replaceContent _ _ _ _ _ _ hq
  next h => exact ⟨rfl, rfl, rfl, rfl, by simp [h], fun _ _ h => h⟩

theorem checkThreshold_pub (s : State) : (checkThreshold s).pub = s.pub := by
  unfold checkThreshold
  split <;> rfl

theorem offerDigest_irq (by_ : Requester) (position : Nat) (words : List Word) (s : State) :
    (offerDigest by_ position words s).irq = s.irq := by
  unfold offerDigest
  split <;> rfl

theorem offerDigest_inEffect (by_ : Requester) (position : Nat) (words : List Word) (s : State) :
    (offerDigest by_ position words s).inEffect = s.inEffect := by
  unfold offerDigest
  split <;> rfl

theorem offerDigest_pub_congr (by_ : Requester) (position : Nat) (words : List Word) {s t : State} (hp : t.pub = s.pub) :
    (offerDigest by_ position words t).pub = (offerDigest by_ position words s).pub := by
  unfold offerDigest digestRoom hasRoom
  rw [hp]
  split
  · simp only [joinQueue, hp]
  · rfl

/-- A reservation reads the Publisher, the settings and the release word alone. -/
theorem reserve_pub_congr (by_ : Requester) (kind : DigestKind) (body : List Word) {s t : State} (hp : t.pub = s.pub)
    (hs : t.settings = s.settings) (hr : releaseWord t = releaseWord s) :
    (reserve by_ kind body t).pub = (reserve by_ kind body s).pub := by
  have he : t.inEffect = s.inEffect := by simp only [State.inEffect, hs]
  have hk : (keepReservation t).pub = (keepReservation s).pub := by simp only [keepReservation, hp]
  have hn : nextPosition t = nextPosition s := by simp only [nextPosition, hp, he]
  have hc : canReserve t = canReserve s := by simp only [canReserve, hp, he]
  unfold reserve
  simp only [hc, hp, hr, hn]
  split
  · rw [checkThreshold_pub, checkThreshold_pub]
    exact offerDigest_pub_congr _ _ _ hk
  · simp only [checkThreshold_pub, loseReservation, hp]

/-- The pending causes after a reservation: DIGEST joins them at the threshold (R171). -/
theorem reserve_irq (by_ : Requester) (kind : DigestKind) (body : List Word) (s : State) :
    (reserve by_ kind body s).irq =
      s.irq ||| (if s.inEffect.threshold ≤ (reserve by_ kind body s).pub.digest.occupied.length then
        8#6 &&& s.inEffect.causeEnable else 0) := by
  have key (u : State) (hi : u.irq = s.irq) (he : u.inEffect = s.inEffect) : (checkThreshold u).irq =
      s.irq ||| (if s.inEffect.threshold ≤ (checkThreshold u).pub.digest.occupied.length then
        8#6 &&& s.inEffect.causeEnable else 0) := by
    rw [checkThreshold_pub]
    unfold checkThreshold
    rw [he]
    split
    · simp only [raiseCause, hi, he]
      rfl
    · simp [hi]
  unfold reserve
  dsimp only
  split
  · exact key _ (by rw [offerDigest_irq]; rfl) (by rw [offerDigest_inEffect]; rfl)
  · exact key _ rfl rfl

/-- Records asked for one after the other: the ring, the items and the losses are those of the parts. -/
theorem ringAfter_append (size : Nat) (first second : List Report) : ∀ d : DigestRing,
    ringAfter size d (first ++ second) =
      let a := ringAfter size d first
      let b := ringAfter size a.1 second
      (b.1, a.2.1 ++ b.2.1, a.2.2 + b.2.2) := by
  induction first with
  | nil => intro d; simp [ringAfter]
  | cons x rest ih =>
    intro d
    simp only [List.cons_append, ringAfter]
    split
    · simp only [ih, List.cons_append]
    · simp only [ih]
      congr 2
      omega

/-- A reservation as one record of the ring (R171). -/
theorem reserve_reported (by_ : Requester) (kind : DigestKind) (body : List Word) (s : State) :
    Reported [⟨kind, body, releaseWord s⟩] s (reserve by_ kind body s) := by
  unfold Reported reserve
  simp only [canReserve, ringAfter, Bool.and_eq_true, Bool.not_eq_true', decide_eq_true_eq]
  split
  next h =>
    refine ⟨?_, ?_, ?_⟩
    · rw [checkThreshold_pub]
      unfold offerDigest
      split <;> rfl
    · rw [checkThreshold_pub]
      unfold offerDigest
      split <;> simp [keepReservation, joinQueue]
    · intro position words hx
      rw [checkThreshold_pub]
      simp only [List.mem_singleton, OwnItem.digest.injEq] at hx
      obtain ⟨rfl, rfl⟩ := hx
      unfold offerDigest
      split
      · exact .inl (List.mem_append_right _ List.mem_cons_self)
      · exact .inr ⟨_, List.mem_append_right _ List.mem_cons_self⟩
  next h =>
    refine ⟨?_, ?_, fun _ _ hx => absurd hx List.not_mem_nil⟩
    · rw [checkThreshold_pub]
      rfl
    · rw [checkThreshold_pub]
      simp [loseReservation]

/-- The body of an access FAULT record, field by field. -/
theorem accessFault_body (f : AccessFault) : faultBody false f.words = accessFaultBody f := by
  have ht := f.tag.isLt
  have hk : f.kind.code ≤ 12 := by cases f.kind <;> decide
  have hz : sizeCode f.size ≤ 2 := by cases f.size <;> decide
  simp only [faultBody, AccessFault.words, accessFaultBody]
  rw [packed_cons _ _ _ 8 (by omega) (by simp), packed_cons _ _ _ 12 (by omega) (by simp),
    packed_cons _ _ _ 16 (by omega) (by simp), ← put_eq_packed]
  simp only [BitVec.or_assoc]
  rfl

/-- What a capture reports (R21). -/
theorem captureAccess_reported (tag : BitVec 4) (kind : FaultKind) (size : Size) (addr : Addr) (reason : FaultReason)
    (s : State) :
    CaptureReported s.path.fault ⟨tag, kind, size, addr, reason, 0⟩ s (captureAccess tag kind size addr reason s) := by
  let f : AccessFault := ⟨tag, kind, size, addr, reason, 0⟩
  have hb : faultBody false f.words = accessFaultBody f := accessFault_body f
  unfold captureAccess
  split
  next h =>
    dsimp only
    rw [show faultBody false (AccessFault.words ⟨tag, kind, size, addr, reason, 0⟩) = accessFaultBody f from hb]
    generalize hu : raiseCause .fault { s with path := { s.path with fault := some f } } = u
    have hup : u.pub = s.pub := by rw [← hu]; rfl
    have hus : u.settings = s.settings := by rw [← hu]; rfl
    have hur : releaseWord u = releaseWord s := by rw [← hu]; rfl
    have hue : u.inEffect = s.inEffect := by rw [← hu]; rfl
    have hui : u.irq = s.irq ||| (1#6 &&& s.inEffect.causeEnable) := by rw [← hu]; rfl
    have hr := reserve_pub_congr .other .fault (accessFaultBody f) hup hus hur
    have hi := reserve_irq .other .fault (accessFaultBody f) u
    have hi' := reserve_irq .other .fault (accessFaultBody f) s
    obtain ⟨d, l, q, i, asked, stays⟩ :=
      requestPublication_pub accessFaultRecordNo (reserve .other .fault (accessFaultBody f) u)
    refine ⟨fun _ => ⟨⟨?_, by rw [d, hr], by rw [l, hr], by rw [q, hr], fun p w hw => stays p w (hr ▸ hw)⟩, asked⟩,
      fun x hx => absurd (h ▸ hx) (by simp)⟩
    rw [i, hi, hi', hr, hue, hui, BitVec.or_comm s.irq, BitVec.or_assoc]
  next x h =>
    refine ⟨fun hn => absurd (h ▸ hn) (by simp), fun y hy => ?_⟩
    obtain rfl : x = y := Option.some.inj (h ▸ hy)
    split
    next hf => exact ⟨rfl, rfl, fun hne => absurd hf hne, fun _ => rfl⟩
    next hf =>
      obtain ⟨d, l, q, i, asked, stays⟩ := requestPublication_pub accessFaultRecordNo
        { s with path := { s.path with fault := some { x with further := x.further + 1 } } }
      exact ⟨i, d, fun _ => asked, fun he => absurd he hf⟩

/-- What was reported depends on the Publisher, the settings, the release word and the pending causes alone. -/
theorem CaptureReported.congr {old : Option AccessFault} {f : AccessFault} {s u t : State} (h : CaptureReported old f u t)
    (hp : u.pub = s.pub) (hs : u.settings = s.settings) (hr : releaseWord u = releaseWord s) (hi : u.irq = s.irq) :
    CaptureReported old f s t := by
  have he : u.inEffect = s.inEffect := by simp only [State.inEffect, hs]
  have hpub := reserve_pub_congr .other .fault (accessFaultBody f) hp hs hr
  have hirq : (reserve .other .fault (accessFaultBody f) u).irq = (reserve .other .fault (accessFaultBody f) s).irq := by
    rw [reserve_irq, reserve_irq, hpub, he, hi]
  simpa only [CaptureReported, FaultReserved, hpub, hirq, he, hp, hi] using h

/-- A completion does not change what was reported. -/
theorem CaptureReported.complete {old : Option AccessFault} {f : AccessFault} {s t : State} (h : CaptureReported old f s t)
    (code : Code) (data : List Word) : CaptureReported old f s (complete code data t) := by
  simpa only [CaptureReported, FaultReserved, Asked, complete_irq, complete_pub] using h

/-- A refusal answers FAULT and captures its reason. -/
theorem refuse_spec (t : Transaction) (reason : FaultReason) (s : State) (c : Current) (h : s.path.current = some c) :
    FaultedWith s (refuse t reason s) c.txn.tag (tagOf t.tag) t.kind.faultKind t.size t.addr reason := by
  have := complete_reports (captureAccess_spec (tagOf t.tag) t.kind.faultKind t.size t.addr reason s) .fault []
  refine ⟨?_, (captureAccess_reported _ _ _ _ _ s).complete _ _⟩
  simpa [answered, refuse, complete, h] using this

theorem refuseHeld_spec (t : Transaction) (reason : FaultReason) (s : State) (c : Current)
    (h : s.path.current = some c) :
    FaultedWith s (refuseHeld t reason s) c.txn.tag (s.path.controlTag.setWidth 4) t.kind.faultKind .word t.addr
      reason := by
  have := complete_reports
    (captureAccess_spec (s.path.controlTag.setWidth 4) t.kind.faultKind .word t.addr reason s) .fault []
  refine ⟨?_, (captureAccess_reported _ _ _ _ _ s).complete _ _⟩
  simpa [answered, refuseHeld, complete, h] using this

/-! ### The engine's run -/

section Runs

variable (P : State → Prop) (hact : ∀ a s, P s → P (execAct a s))
  (hstage : ∀ st s s' acts, P s → enterStage st s = some (s', acts) → P s') (hjob : ∀ j s, P s → P (setJob j s))

include hact in
theorem runActs_keeps (acts : List Act) : ∀ s, P s → P (runActs acts s).1 := by
  induction acts with
  | nil => exact fun s h => h
  | cons a rest ih =>
    intro s h
    unfold runActs
    split
    · exact h
    · exact ih _ (hact a s h)

include hact hstage hjob in
theorem runStages_keeps (stages : List Stage) : ∀ s, P s → P (runStages stages s) := by
  induction stages with
  | nil => exact fun s h => hjob _ _ h
  | cons st rest ih =>
    intro s h
    unfold runStages
    split
    next => exact hjob _ _ h
    next s1 acts he =>
      have h2 := runActs_keeps P hact acts s1 (hstage st s s1 acts h he)
      split
      next s2 hr => rw [hr] at h2; exact ih _ h2
      next s2 left _ hr => rw [hr] at h2; exact hjob _ _ h2

include hact hstage hjob in
/-- Whatever every act, every stage and a change of what is in hand keep, the engine's run keeps. -/
theorem runJob_keeps (acts : List Act) (stages : List Stage) (s : State) (h : P s) : P (runJob acts stages s) := by
  have h1 := runActs_keeps P hact acts s h
  unfold runJob
  split
  next s1 hr => rw [hr] at h1; exact runStages_keeps P hact hstage hjob stages _ h1
  next s1 left _ hr => rw [hr] at h1; exact hjob _ _ h1

include hact hstage hjob in
theorem resumeEngine_keeps (s : State) (h : P s) : P (resumeEngine s) := by
  unfold resumeEngine
  split
  · exact h
  · exact runJob_keeps P hact hstage hjob _ _ _ h

end Runs

/-- What an act changes besides reports: an OUTBOUND item raises the outbound index in the Publisher, and a relayed summary
is counted. -/
theorem execAct_reports (a : Act) (s : State) (h : a ≠ .countRelayed) : ReportsFrom s (execAct a s) := by
  cases a with
  | digest kind body => exact reserve_reports _ _ _ _
  | offer o =>
    show ReportsFrom s (offerItem o s)
    unfold offerItem
    split
    · cases o with
      | outbound frame =>
        exact ReportsFrom.trans (b := { s with pub := { s.pub with outboundIndex := s.pub.outboundIndex + 1 } })
          (by constructor <;> rfl) (joinQueue_reports _ _)
      | status slot word => exact joinQueue_reports _ _
      | fetch pos => exact joinQueue_reports _ _
    · exact setJob_reports _ _
  | await => exact ReportsFrom.refl s
  | cause c => exact raiseCause_reports _ _
  | publish r => exact requestPublication_reports _ _
  | countRelayed => exact absurd rfl h

/-- Acts without a relay count are reports. -/
theorem runActs_reports (acts : List Act) : ∀ s, .countRelayed ∉ acts → ReportsFrom s (runActs acts s).1 := by
  induction acts with
  | nil => exact fun s _ => ReportsFrom.refl s
  | cons a rest ih =>
    intro s h
    simp only [List.mem_cons, not_or] at h
    unfold runActs
    split
    · exact ReportsFrom.refl s
    · exact (execAct_reports a s (fun e => h.1 e.symm)).trans (ih _ h.2)

/-! ### Positions of the digest ring, and the end of a DIGEST item (R170, R172) -/

theorem ringIndex_position {size oldest i : Nat} (ho : oldest < size) (hi : i < size) :
    ringIndex size oldest ((oldest + i) % size) = i := by
  unfold ringIndex
  by_cases h : oldest + i < size
  · rw [Nat.mod_eq_of_lt h, show oldest + i + size - oldest = i + size by omega, Nat.add_mod_right, Nat.mod_eq_of_lt hi]
  · have hm : (oldest + i) % size = oldest + i - size := by
      rw [Nat.mod_eq_sub_mod (by omega), Nat.mod_eq_of_lt (by omega)]
    rw [hm, show oldest + i - size + size - oldest = i by omega, Nat.mod_eq_of_lt hi]

theorem position_ringIndex {size oldest position : Nat} (ho : oldest < size) (hp : position < size) :
    (oldest + ringIndex size oldest position) % size = position := by
  unfold ringIndex
  rw [Nat.add_mod_mod, show oldest + (position + size - oldest) = position + size by omega, Nat.add_mod_right,
    Nat.mod_eq_of_lt hp]

/-- The item of an occupied entry is found by the entry's position and sequence. -/
theorem entryOfItem_some (s : State) (i : Nat) (e : DigestEntry) (words : List Word)
    (ho : s.pub.digest.oldest < s.inEffect.ringSize) (hl : s.pub.digest.occupied.length ≤ s.inEffect.ringSize)
    (he : s.pub.digest.occupied[i]? = some e) (hq : digestSequence (wordAt words 0) = e.sequence) :
    entryOfItem s ((s.pub.digest.oldest + i) % s.inEffect.ringSize) words = some i := by
  have hi : i < s.inEffect.ringSize := Nat.lt_of_lt_of_le (List.getElem?_eq_some_iff.mp he).1 hl
  unfold entryOfItem
  rw [ringIndex_position ho hi, if_pos ⟨Nat.mod_lt _ (Nat.zero_lt_of_lt ho), by rw [he, hq]; rfl⟩]

/-- The entry found is occupied, at the item's position, with the item's sequence. -/
theorem entryOfItem_spec (s : State) (position : Nat) (words : List Word) (i : Nat)
    (ho : s.pub.digest.oldest < s.inEffect.ringSize) (h : entryOfItem s position words = some i) :
    position = (s.pub.digest.oldest + i) % s.inEffect.ringSize
      ∧ ∃ e, s.pub.digest.occupied[i]? = some e ∧ digestSequence (wordAt words 0) = e.sequence := by
  unfold entryOfItem at h
  dsimp only at h
  split at h
  · next hc =>
    obtain rfl := Option.some.inj h
    obtain ⟨e, he, hq⟩ := Option.map_eq_some_iff.mp hc.2
    exact ⟨(position_ringIndex ho hc.1).symm, e, he, hq.symm⟩
  · cases h

/-- The end of a DIGEST item changes the digest ring alone. -/
theorem entryWritten_reports (position : Nat) (words : List Word) (s : State) :
    ReportsFrom s (entryWritten position words s) := by
  unfold entryWritten
  split
  · constructor <;> rfl
  · exact ReportsFrom.refl s

/-- The end of a DIGEST item makes at most one entry WRITTEN, and changes no entry's position, sequence or lost count. -/
theorem entryWritten_cases (position : Nat) (words : List Word) (s : State) :
    entryWritten position words s = s ∨ ∃ i, entryOfItem s position words = some i
      ∧ entryWritten position words s = { s with pub := { s.pub with digest := { s.pub.digest with
          occupied := s.pub.digest.occupied.modify i (fun e => { e with written := true }) } } } := by
  unfold entryWritten
  split
  · next i h => exact .inr ⟨i, h, rfl⟩
  · exact .inl rfl

end Sys2Proof.Machine
end

