-- ==== Sys2Proof/Laws/Path.lean ====
section
/-! SUPPORT. What the Path Controller's operations read and leave: decode looks at the straps and the settings only, marks
and reports of reads leave the path as it was, and a response that stands on the port is taken. -/
namespace Sys2Proof.Machine

theorem upd_upd {α : Type} {n : Nat} (v : Vector α n) (i : Fin n) (x y : α) : upd (upd v i x) i y = upd v i y := by
  simp [upd]

/-- An aligned address is the address of its word. -/
theorem wordOf_aligned (a : Addr) (h : aligned .word a = true) : wordOf a = a := by
  simp only [aligned, beq_iff_eq] at h
  apply BitVec.eq_of_toNat_eq
  simp only [wordOf, BitVec.toNat_ofNat]
  omega

/-! ### Decode -/

/-- Decode depends on the base straps alone. -/
theorem controlOffset_congr {s t : State} (h : t.path.baseStraps = s.path.baseStraps) (a : Addr) :
    controlOffset t a = controlOffset s a := by
  unfold controlOffset
  rw [h]

/-- The control area in numbers (R4, R26). -/
theorem controlOffset_eq (s : State) (a : Addr) :
    controlOffset s a =
      if s.path.baseStraps.toNat * 2 ^ 20 ≤ a.toNat ∧ a.toNat < s.path.baseStraps.toNat * 2 ^ 20 + 0x8000 then
        some (a.toNat - s.path.baseStraps.toNat * 2 ^ 20)
      else none := by
  have hb := s.path.baseStraps.isLt
  have ha := a.isLt
  have key : a.extractLsb' 15 9 = s.path.baseStraps ++ 0#5 ↔ a.toNat / 2 ^ 15 = s.path.baseStraps.toNat * 32 := by
    rw [← BitVec.toNat_inj]
    simp only [BitVec.extractLsb'_toNat, BitVec.toNat_append, Nat.shiftRight_eq_div_pow, Nat.shiftLeft_eq]
    simp only [BitVec.toNat_ofNat, Nat.zero_mod, Nat.or_zero]
    omega
  unfold controlOffset
  simp only [key, BitVec.extractLsb'_toNat, Nat.shiftRight_eq_div_pow]
  split
  · rw [if_pos (by omega)]
    congr 1
    omega
  · rw [if_neg (by omega)]

/-- An address of the area lies at its offset. -/
theorem controlOffset_controlAddr (s : State) (off : Nat) (h : off < 0x8000) :
    controlOffset s (controlAddr s off) = some off := by
  have hb := s.path.baseStraps.isLt
  have e : (controlAddr s off).toNat = s.path.baseStraps.toNat * 2 ^ 20 + off := by
    simp only [controlAddr, controlBase, BitVec.toNat_add, BitVec.toNat_append, BitVec.toNat_ofNat, Nat.shiftLeft_eq,
      Nat.zero_mod, Nat.or_zero]
    omega
  rw [controlOffset_eq, e, if_pos (by omega)]
  congr 1
  omega

@[simp] theorem controlOffset_becomeCurrent (t : Transaction) (s : State) (a : Addr) :
    controlOffset (becomeCurrent t s) a = controlOffset s a := rfl
@[simp] theorem isControl_becomeCurrent (t : Transaction) (s : State) (a : Addr) :
    isControl (becomeCurrent t s) a = isControl s a := rfl
@[simp] theorem isOwned_becomeCurrent (t : Transaction) (s : State) (a : Addr) :
    isOwned (becomeCurrent t s) a = isOwned s a := by
  unfold isOwned
  rw [controlOffset_becomeCurrent]
  simp only [becomeCurrent_inEffect]
@[simp] theorem windowOf_becomeCurrent (t : Transaction) (s : State) (a : Addr) :
    windowOf (becomeCurrent t s) a = windowOf s a := by
  unfold windowOf windowUnder
  rw [controlOffset_becomeCurrent]
  simp only [becomeCurrent_inEffect]
@[simp] theorem yield_becomeCurrent (t : Transaction) (s : State) : (becomeCurrent t s).path.yield = s.path.yield := rfl
@[simp] theorem lock_becomeCurrent (t : Transaction) (s : State) : (becomeCurrent t s).path.lock = s.path.lock := rfl
@[simp] theorem firstLookup_becomeCurrent (t : Transaction) (s : State) (h : HeadKey) :
    firstLookup (becomeCurrent t s) h = firstLookup s h := rfl
@[simp] theorem lockedWordOf_becomeCurrent (t : Transaction) (s : State) (tag : Fin 8) :
    lockedWordOf tag (becomeCurrent t s) = lockedWordOf tag s := rfl

/-- A word in a sample window is not in the control area. -/
theorem not_control_of_window {s : State} {a : Addr} {w : Fin 4} (h : windowOf s a = some w) : isControl s a = false := by
  cases hc : controlOffset s a with
  | none => simp [isControl, hc]
  | some off => simp [windowOf, windowUnder, hc] at h

/-! ### Marks -/

/-- A mark does not look at the path. -/
theorem mark_withPath (t : Target) (p : PathState) (s : State) : mark t { s with path := p } = { mark t s with path := p } := by
  unfold mark
  split
  · rfl
  · next q =>
    show (if s.pointEnabled q = true then _ else _) = _
    split <;> rfl
  · next r =>
    show (if slotEnabled (s.engine.slotEntries.get r).entry = true then _ else _) = _
    split <;> rfl

theorem tear_path (tag : Fin 8) (s : State) : (tear tag s).path = s.path := by
  unfold tear
  split
  · rfl
  · exact mark_path _ _

/-- A tear does not look at the path. -/
theorem tear_withPath (tag : Fin 8) (p : PathState) (s : State) :
    tear tag { s with path := p } = { tear tag s with path := p } := by
  cases h : s.asm.records.get tag with
  | none => simp only [tear, h]
  | some f =>
    simp only [tear, h]
    exact mark_withPath (targetOf (f.kind == kindSummary) f.lookup) p
      { s with asm := { s.asm with records := upd s.asm.records tag none, torn := s.asm.torn + 1 } }

/-! ### Arrival -/

/-- The arrival of a transaction that fits, while none is current. -/
theorem arrive_free (t : Transaction) (decode : State → State) (s : State) (h : s.path.current = none) :
    arrive t true decode s = .next (screen t decode (becomeCurrent t s)) := by
  simp [arrive, h]

/-- Screening reaches decode (R3). -/
theorem screen_open (t : Transaction) (decode : State → State) (s : State) (h : OpenTo t.tag s)
    (hk : t.kind = .read ∨ t.kind = .write ∨ t.kind = .pairRead ∨ t.kind = .pairWrite) :
    screen t decode (becomeCurrent t s) = decode (becomeCurrent t s) := by
  have hy : (becomeCurrent t s).path.yield = false := h.2.2
  unfold screen
  rw [lockedWordOf_becomeCurrent, h.2.1]
  rcases hk with hk | hk | hk | hk <;> simp_all

/-- A transaction that is decoded waits for the port with its own access unless decode says otherwise. -/
theorem becomeCurrent_waiting (t : Transaction) (s : State) : becomeCurrent t s = waiting t (.pass t.plainAccess []) s := rfl

theorem setPhase_becomeCurrent (t : Transaction) (ph : Phase) (s : State) :
    setPhase ph (becomeCurrent t s) = waiting t ph s := rfl

theorem complete_becomeCurrent (t : Transaction) (code : Code) (data : List Word) (s : State) :
    complete code data (becomeCurrent t s) = answered t.tag code data s := rfl

/-- A refusal on arrival (R10, R15, R17, R21). -/
theorem refuse_becomeCurrent (t : Transaction) (reason : FaultReason) (s : State) :
    FaultedWith s (refuse t reason (becomeCurrent t s)) t.tag (tagOf t.tag) t.kind.faultKind t.size t.addr reason :=
  have h := refuse_spec t reason (becomeCurrent t s) ⟨t, .pass t.plainAccess []⟩ rfl
  ⟨h.1, h.2.congr rfl rfl rfl rfl⟩

/-! ### The grant -/

/-- A grant reads no record IN UPDATE or TORN and writes no owned word; otherwise it issues the access of the phase. -/
theorem grantPass_issues (c : Current) (s : State)
    (hr : isRead c.txn.kind = false ∨ (wordsOf c.txn).any (unreadable s) = false)
    (hw : passesWrite c = false ∨ (wordsOf c.txn).any (isOwned s) = false) :
    grantPass c s = issue (phaseAccess s c).1 (phaseAccess s c).2 s := by
  unfold grantPass
  rw [if_neg (by rcases hr with h | h <;> simp [h]), if_neg (by rcases hw with h | h <;> simp [h])]

/-- A waiting write to a word that is owned at the grant is refused (R10). -/
theorem grantPass_refused (c : Current) (s : State) (hw : passesWrite c = true)
    (ho : (wordsOf c.txn).any (isOwned s) = true) : grantPass c s = refuse c.txn .ownedWrite s := by
  have hr : isRead c.txn.kind = false := by
    unfold passesWrite at hw
    cases h : c.txn.kind <;> simp_all [isRead]
  simp [grantPass, hr, hw, ho]

/-! ### Responses -/

/-- A response is taken when the access on the port is of its issuer's kind and was not discarded. -/
theorem respond_taken (issuer : Issuer) (take : Access → State → State) (s : State) (access : Access)
    (h : s.path.port = some ⟨issuer, access, false⟩) : respond issuer take s = take access (freePort s) := by
  simp [respond, h]

/-- A response to a discarded access frees the port and has no other effect (R25). -/
theorem respond_discarded (issuer : Issuer) (take : Access → State → State) (s : State) (access : Access)
    (h : s.path.port = some ⟨issuer, access, true⟩) : respond issuer take s = freePort s := by
  simp [respond, h]

theorem releaseEntries_path (i : Nat) (s : State) : (releaseEntries i s).path = s.path := by
  unfold releaseEntries
  dsimp only
  split
  · split <;> rfl
  · rfl

theorem reportRead_path (a : Addr) (s : State) : (reportRead a s).path = s.path := by
  unfold reportRead
  cases controlOffset s (wordOf a) with
  | none => rfl
  | some off =>
    cases h : releasePosition s.inEffect.ringSize off with
    | none => simp only [h]
    | some k => simp only [h, releaseEntries_path]

end Sys2Proof.Machine
end

