-- ==== Sys2Proof/Tests/Slice0.lean ====
section
/-! SUPPORT. Tests: the well-formedness checks refuse ill-formed commands, one or two steps of each command on small states,
and for every statement with hypotheses states that meet them. -/
namespace Sys2Proof.Tests
open Sys2Proof Sys2Proof.Machine

-- One theorem at a time: each kernel evaluation would otherwise wait in a thread of its own.
set_option Elab.async false

/-! ### Well-formedness -/

theorem test_wf_half_odd : (Instr.read 0 1 .half).wellFormed = false := by decide
theorem test_wf_word_two : (Instr.write 0 2 .word 0).wellFormed = false := by decide
theorem test_wf_pair_read : (Instr.pairRead 0 6).wellFormed = false := by decide
theorem test_wf_pair_write : (Instr.pairWrite 0 1 0 0).wellFormed = false := by decide
theorem test_wf_lock_read : (Instr.lockRead 0 3).wellFormed = false := by decide
theorem test_wf_lock_write : (Instr.lockWrite 0 2 0).wellFormed = false := by decide
theorem test_wf_fits : (Instr.read 7 0xFFFFFF .byte).wellFormed = true ∧ (Instr.read 0 2 .half).wellFormed = true
    ∧ (Instr.pairWrite 0 0xFFFFFC 0 0).wellFormed = true ∧ (Instr.vectorRead 0 3).wellFormed = true := by decide

/-! ### Small states -/

/-- The state a command leaves, when it leaves one. -/
def after (i : Instr) (s : State) : Option State :=
  match exec i s with
  | .next t => some t
  | .fault _ | .refused _ => none

def stops (i : Instr) (s : State) : Bool := (after i s).isNone

def settingsOn : GlobalSettings :=
  { GlobalSettings.unloaded with
    enable := true
    windows := #v[⟨true, 0x10000, 0x100⟩, ⟨false, 0, 0⟩, ⟨false, 0, 0⟩, ⟨false, 0, 0⟩]
    period := 100
    vectorBase := 0x40
    causeEnable := 0x3F
    hopLimit := 4 }

/-- Processing is on, with one sample window. -/
def on : State := { State.reset with settings := ⟨1, some settingsOn⟩, timer := ⟨true, 0, some 100⟩ }

/-- The port has this access, and the transaction this phase. -/
def onPort (issuer : Issuer) (t : Transaction) (phase : Phase) (s : State) : State :=
  { s with path := { s.path with
      port := some ⟨issuer, ⟨.read, .word, t.addr, 0, 0⟩, false⟩
      current := some ⟨t, phase⟩ } }

/-- The oldest own item has begun and an access of it is on the port. -/
def ownOnPort (it : OwnItem) (pr : Progress) (s : State) : State :=
  { s with
    path := { s.path with port := some ⟨.own, ⟨.write, .word, 0x1418, 0, 0⟩, false⟩ }
    pub := { s.pub with queue := [it], begun := some pr } }

def queued (items : List WorkItem) (s : State) : State := { s with engine := { s.engine with workQueue := items } }

/-- A command word (Table 11-8): kind, target and tag. -/
def word (kind target tag : Nat) : Word := put kind 0 ||| put target 8 ||| put tag 16

def commanded (kind target tag : Nat) (args : List Word) (s : State) : State :=
  queued [.command ⟨2, word kind target tag, args⟩] s

def one32 : Word := 0x3F800000
def two32 : Word := 0x40000000

def pointEntry : PointEntry := ⟨true, one32, one32, two32, 1000, 1000, 1, false⟩

def withPoint (p : Fin 16) (r : PointRecord) (s : State) : State :=
  { s with engine := { s.engine with
      pointEntries := upd s.engine.pointEntries p ⟨1, some pointEntry⟩
      points := upd s.engine.points p r } }

/-- Points 0 and 1 enabled. -/
def twoPoints : State := withPoint 1 PointRecord.initial (withPoint 0 PointRecord.initial on)

def action : FirstAction := ⟨.process, 0, .velocity, 0, .raw, none, .none⟩
def anyKey : FirstKey := ⟨0, 0, 0, 0, 0, 0, 0, 0, 0, 0⟩
def lookup (a : FirstAction) : LookupResult := ⟨5, 1, a⟩

/-- A four-word sample of kind 1, of time stamp `time` and converted value `v`. -/
def sample (a : FirstAction) (time : Word) (v : F64) : FrameItem :=
  ⟨0, 0, [1, time, 7], some v, some (lookup a), 0⟩

/-- A summary of station 3, complete, with volume 1.0 and solids 1.0. -/
def summary (a : FirstAction) : FrameItem :=
  ⟨0, 0, [8, 3, 0x10000, 9, 0x3FF00000, 0, one32], none, some (lookup a), 0⟩

def withSlot (r : Fin 8) (s : State) : State :=
  { s with engine := { s.engine with slotEntries := upd s.engine.slotEntries r ⟨1, some ⟨true, 3⟩⟩ } }

def segmentEntry : SegmentEntry := ⟨true, .point 0, 1, .volume, 0, 1, one32, 0, 1⟩

def withSegment (g : Fin 8) (x : Segment) (s : State) : State :=
  { s with balance := { s.balance with
      entries := upd s.balance.entries g ⟨1, some segmentEntry⟩
      segments := upd s.balance.segments g x } }

def running (state : ProvingRun) (s : State) : State :=
  { s with proving := { ProvingState.initial with
      run := state
      owner := 9
      test := 0
      reference := 1
      requested := 1 } }

/-- The digest ring with one WRITTEN and one RESERVED entry. -/
def ringed (s : State) : State :=
  { s with pub := { s.pub with digest := ⟨3, [⟨true, 7, 0⟩, ⟨false, 8, 0⟩], 9, 0, false⟩ } }

def open4 : OpenFrame := ⟨0x10000, 0, 1, 4, 1, [1], 1, none, some (lookup action), none, 0⟩

def withFrame (tag : Fin 8) (f : OpenFrame) (s : State) : State :=
  { s with asm := { s.asm with records := upd s.asm.records tag (some f) } }

def done (d : Word) : Response := ⟨.done, d⟩

/-! ### One step of each command -/

theorem test_powerOnReset : (after (.powerOnReset 3 5) (ringed twoPoints)).map (fun t =>
    (t.path.baseStraps, t.path.controlTag, t.inEffect.enable, t.pub.digest.occupied.length)) = some (3, 5, false, 0) := by
  decide +kernel

theorem test_busReset : (after (.busReset false) (queued [.marker, .frame (sample action 0 0)] (ringed twoPoints))).map
    (fun t => (t.engine.workQueue, t.engine.droppedByReset, t.pub.digest.nextSequence, t.pub.digestLost,
      t.pub.queue.length)) = some ([.marker], 1, 9, 1, 1) := by decide +kernel

theorem test_busReset_proving : (after (.busReset true) (running .armed twoPoints)).map (fun t =>
    (t.proving.run, t.proving.abort, t.irq, t.pub.queue.length)) = some (.aborted, .reset, 0x10, 3) := by decide +kernel

theorem test_read : (after (.read 1 0x20002 .half) on).map (fun t => t.path.current.map (·.phase)) =
    some (some (.pass ⟨.read, .half, 0x20002, 0, 0⟩ [])) := by decide +kernel

theorem test_read_misaligned : stops (.read 1 0x20001 .half) on = true := by decide +kernel

theorem test_write_commit : (after (.write 0 0x3C .word 0x80000001) on).map (fun t => t.path.current.map (·.phase)) =
    some (some (.fetch (.commit .globalSettings) ⟨15, [], 0, false⟩ [0x80000001])) := by decide +kernel

theorem test_write_other_master : (after (.write 3 0x3C .word 0) on).map (fun t =>
    (t.path.completion.map (·.code), t.path.fault.map (·.reason), t.irq)) =
    some (some .fault, some .controlFromOtherMaster, 1) := by decide +kernel

theorem test_pairRead : (after (.pairRead 1 0x1800) on).map (fun t => t.path.current.map (·.phase)) =
    some (some (.pass ⟨.pairRead, .word, 0x1800, 0, 0⟩ [])) := by decide +kernel

theorem test_pairWrite_head : (after (.pairWrite 1 0x10000 1 77) on).map (fun t => t.path.current.map (fun c =>
    match c.phase with
    | .pass a holds => (a.data0, a.data1, holds.length)
    | _ => (0, 0, 0))) = some (some (1, 77, 2)) := by decide +kernel

theorem test_pairWrite_command : (after (.pairWrite 0 0x141C 8 0) on).map (fun t => (t.path.fault.map (·.reason),
    t.cmd.granted)) = some (none, some 0) := by decide +kernel

theorem test_lockRead_control : (after (.lockRead 1 0x40) on).map (fun t => t.path.fault.map (·.reason)) =
    some (some .lockedControl) := by decide +kernel

theorem test_lockWrite_without_lock : (after (.lockWrite 1 0x20000 0) on).map (fun t => t.path.fault.map (·.reason)) =
    some (some .lockBroken) := by decide +kernel

theorem test_vectorRead : (after (.vectorRead 1 0) { on with irq := 0x28 }).map (fun t =>
    (t.path.completion.map (·.data), t.irq)) = some (some [0x43], 0x20) := by decide +kernel

theorem test_vectorRead_empty : (after (.vectorRead 1 0) on).map (fun t => t.path.completion.map (·.data)) =
    some (some [0x47]) := by decide +kernel

theorem test_portGrant_own : (after .portGrant { on with pub := { on.pub with queue := [.status 2 5] } }).map (fun t =>
    t.path.port) = some (some ⟨.own, ⟨.write, .word, 0x1458, 5, 0⟩, false⟩) := by decide +kernel

theorem test_passThroughResponse : (after (.passThroughResponse (done 9) (done 0))
    (onPort .passThrough ⟨1, .read, 0x407C, .word, 0, 0⟩ (.pass ⟨.read, .word, 0x407C, 0, 0⟩ []) (ringed on))).map
    (fun t => (t.path.completion.map (·.data), t.pub.digest.occupied.length, t.pub.digest.oldest)) =
    some (some [9], 1, 4) := by decide +kernel

theorem test_fetchAccessResponse : (after (.fetchAccessResponse (done 2) (done 3))
    (onPort .fetch ⟨0, .write, 0xA0C, .word, 0, 0⟩ (.fetch (.commit (.slot 0)) ⟨3, [1], 0, false⟩ [0x80000001]) on)).map
    (fun t => t.path.current.map (·.phase)) =
    some (some (.held (.commit (.slot 0)) [1, 2, 3, 0x80000001] 0)) := by decide +kernel

theorem test_heldWriteResponse : (after (.heldWriteResponse (done 0))
    (onPort .heldWrite ⟨0, .write, 0xA0C, .word, 0, 0⟩ (.held (.commit (.slot 0)) [0x301, 0, 0, 0x80000007] 0) on)).map
    (fun t => t.engine.slotEntries.get 0) = some ⟨7, some ⟨true, 3⟩⟩ := by decide +kernel

theorem test_lockedWriteResponse : (after (.lockedWriteResponse ⟨.retry, 0⟩)
    (onPort .lockedWrite ⟨1, .lockWrite, 0x20000, .word, 0, 0⟩ (.locked 7) on)).map
    (fun t => t.path.completion.map (·.code)) = some (some .fault) := by decide +kernel

theorem test_ownAccessResponse : (after (.ownAccessResponse (done 0) (done 0))
    (ownOnPort (.status 2 5) ⟨0, ⟨0, [], 0, false⟩⟩ on)).map (fun t => (t.pub.queue, t.irq)) = some ([], 0x20) := by
  decide +kernel

theorem test_windowPeriodExpiry : (after .windowPeriodExpiry { on with timer := ⟨true, 100, some 100⟩ }).map (fun t =>
    (t.timer, t.engine.workQueue)) = some (⟨true, 0, some 100⟩, [.marker]) := by decide +kernel

theorem test_queuePlaceGiven : (after .queuePlaceGiven { on with pub := { on.pub with owedStatus := [(3, 7)] } }).map
    (fun t => (t.pub.queue, t.pub.owedStatus)) = some ([.status 3 7], []) := by decide +kernel

theorem test_takeFrameItem : (after .takeFrameItem (queued [.frame (sample action 10 f64One)] twoPoints)).map (fun t =>
    ((t.engine.points.get 0).velocity, (t.engine.points.get 0).baseFlag, t.engine.processed)) =
    some (f64One, true, 1) := by decide +kernel

theorem test_takeFrameItem_summary : (after .takeFrameItem (queued [.frame (summary action)] (withSlot 0 on))).map (fun t =>
    ((t.engine.slots.get 0).volume, (t.engine.slots.get 0).count, (t.engine.slots.get 0).mismatch)) =
    some (f64One, 1, false) := by decide +kernel

theorem test_takeWindowCloseMarker : (after .takeWindowCloseMarker (queued [.marker] twoPoints)).map (fun t =>
    (t.engine.windowNumber, t.engine.job, (t.engine.points.get 0).conditions, t.pub.queue.length)) =
    some (1, none, condStale, 27) := by decide +kernel

theorem test_clearTotals : (after .clearTotals (commanded 1 0 0 []
    (withPoint 0 { PointRecord.initial with volumeTotal := f64One } twoPoints))).map (fun t =>
    ((t.engine.points.get 0).volumeTotal, t.pub.queue.length)) = some (0, 2) := by decide +kernel

theorem test_ackConditions : (after .ackConditions (commanded 2 0 0 [0x41]
    (withPoint 0 { PointRecord.initial with conditions := 0x43, hold := true } twoPoints))).map (fun t =>
    ((t.engine.points.get 0).conditions, (t.engine.points.get 0).hold, t.irq)) = some (2, false, 2) := by decide +kernel

theorem test_startProving : (after .startProving (commanded 3 0 9 [1, 4] twoPoints)).map (fun t =>
    (t.proving.run, t.proving.number, t.proving.requested, t.irq)) = some (.armed, 1, 4, 0x10) := by decide +kernel

theorem test_endProving : (after .endProving (commanded 4 0 9 [] (running .running twoPoints))).map (fun t =>
    (t.proving.run, t.proving.abort)) = some (.aborted, .command) := by decide +kernel

theorem test_reloadImage : (after .reloadImage (commanded 5 0 0 [] on)).map (fun t =>
    (t.pub.queue.head?, t.pub.queue.length, t.engine.reload)) = some (some (.fetch .globalSettings), 32, some ⟨0, 0, 0⟩) := by
  decide +kernel

theorem test_resyncDigest : (after .resyncDigest (commanded 6 0 0 [] (ringed on))).map (fun t =>
    (t.pub.digest.oldest, t.pub.digest.occupied)) = some (4, [⟨false, 8, 0⟩]) := by decide +kernel

def nextEntry : ClassEntry := .first anyKey { action with capture := .next }

def withEntry (e : Fin 64) (c : ClassEntry) (armed : Bool) (s : State) : State :=
  { s with cls := { s.cls with
      entries := upd s.cls.entries e ⟨1, some c⟩
      armed := upd s.cls.armed e armed } }

theorem test_armCapture : (after .armCapture (commanded 7 63 0 [] (withEntry 63 nextEntry false on))).map (fun t =>
    t.cls.armed.get 63) = some true := by decide +kernel

def faulted (s : State) : State := { s with path := { s.path with fault := some ⟨0, .read, .word, 0, .lockBroken, 2⟩ } }

theorem test_clearFaults : (after .clearFaults (commanded 8 0 0 [] (faulted on))).map (fun t =>
    (t.path.fault, t.pub.queue.length)) = some (none, 3) := by decide +kernel

theorem test_resetSegment : (after .resetSegment (commanded 9 7 0 []
    (withSegment 7 { Segment.initial with conditions := segLoss } twoPoints))).map (fun t =>
    ((t.balance.segments.get 7).state, (t.balance.segments.get 7).conditions, t.irq)) = some (.filling, 0, 2) := by
  decide +kernel

theorem test_unknownCommand : (after .unknownCommand (commanded 10 0 4 [] on)).map (fun t => t.pub.queue) =
    some [.status 2 0x41A] := by decide +kernel

theorem test_millisecondCountAdvance : (after .millisecondCountAdvance on).map (·.timer) = some ⟨true, 1, some 100⟩ := by
  decide +kernel

/-! ### For each statement, states that meet its hypotheses -/

theorem test_hyp_StepRunsFrontCommand :
    ({ on with pending := [.portGrant, .clearTotals] } : State).pending = .portGrant :: [.clearTotals] := rfl

theorem test_hyp_StepKeeps : step State.reset = .next State.reset ∧ step { on with pending := [.portGrant] } = .next on :=
  ⟨rfl, rfl⟩

theorem test_hyp_BusResetRecords :
    let s := queued [.marker, .frame (summary action)] (withSlot 0 on)
    s.engine.job = none ∧ WorkItem.frame (summary action) ∈ s.engine.workQueue
      ∧ targetOf (summary action).isSummary (summary action).lookup = .slot 0
      ∧ slotEnabled (s.engine.slotEntries.get 0).entry = true := by decide +kernel

def openSummary : OpenFrame := { open4 with kind := 8, length := 8 }

/-- An open summary and a dropped one each mark their slot, 0; slot 1, enabled too, keeps its flag. -/
theorem test_hyp_BusResetSlots :
    let complete : RemoteSlot := ⟨0, 0, 1, true, false, 0, 0, false⟩
    let both (s : State) : State :=
      { s with engine := { s.engine with slots := upd (upd s.engine.slots 0 complete) 1 complete } }
    let slots (s : State) := (after (.busReset false) s).map (fun t => [0, 1].map (fun r =>
      (t.engine.slots.get r).allComplete))
    let base : State := both (withSlot 1 (withSlot 0 on))
    (withFrame 7 openSummary base).asm.records.get 7 = some openSummary
      ∧ targetOf (openSummary.kind == kindSummary) openSummary.lookup = .slot 0
      ∧ slots (withFrame 7 openSummary base) = some [false, true]
      ∧ slots (queued [.frame (summary action)] base) = some [false, true] ∧ slots base = some [true, true] := by
  decide +kernel

def resetting : State :=
  let s := commanded 1 0 0 [] (ringed on)
  { s with pub := { s.pub with queue := [.status 1 7], owedStatus := [(4, 9)] } }

theorem test_hyp_BusResetPublisher : resetting.engine.job = none ∧ provingInProgress resetting = false
    ∧ (resetting.pub.digest.occupied.filter (·.written)).length < resetting.inEffect.ringSize
    ∧ OwnItem.status 1 7 ∈ resetting.pub.queue ∧ (4, 9) ∈ resetting.pub.owedStatus
    ∧ resetting.engine.workQueue.length ≤ 16
    ∧ WorkItem.command ⟨2, word 1 0 0, []⟩ ∈ resetting.engine.workQueue := by decide +kernel

/-- `written` WRITTEN entries, and a RESERVED one that a lost record stood before. -/
def filled (written : Nat) (s : State) : State :=
  { s with pub := { s.pub with digest :=
      ⟨3, List.replicate written ⟨true, 7, 0⟩ ++ (if written < 16 then [⟨false, 8, 1⟩] else []), 9, 0, false⟩ } }

/-- The ring with 2, 1 and no place left by the entries that stay, a run in progress and none: records kept and lost, and
the two items in either order. -/
theorem test_hyp_BusResetRing :
    let run (written : Nat) : State := filled written (running .armed twoPoints)
    let ring (first : Bool) (s : State) := (after (.busReset first) s).map (fun t =>
      (t.pub.digest.occupied.length, t.pub.digest.lost, t.pub.digestLost))
    let items (first : Bool) (s : State) (n : Nat) := (after (.busReset first) s).map (·.pub.queue.take n)
    let restart (s : State) (k : Nat) := resetItem s k .restart (resetBody s)
    let abort (s : State) (k : Nat) := resetItem s k .proving (abortBody s)
    (staying (run 14)).length = 14 ∧ (returned (run 14)).length = 1 ∧ provingInProgress (run 14) = true
      ∧ restored (run 14) 0 = (8, 2) ∧ restored (filled 16 on) 1 = (9, 1)
      ∧ ring false (run 14) = some (16, 0, 1) ∧ ring false (run 15) = some (16, 1, 2)
      ∧ ring false (run 16) = some (16, 2, 2) ∧ ring false (filled 15 on) = some (16, 0, 1)
      ∧ ring false (filled 16 on) = some (16, 1, 1)
      ∧ items false (run 14) 2 = some [restart (run 14) 0 2 8, abort (run 14) 1 0 9]
      ∧ items true (run 14) 2 = some [abort (run 14) 0 2 8, restart (run 14) 1 0 9]
      ∧ items false (run 15) 1 = some [restart (run 15) 0 2 8] ∧ items true (run 15) 1 = some [abort (run 15) 0 2 8]
      ∧ items true (filled 15 on) 1 = some [restart (filled 15 on) 0 2 8] := by decide +kernel

/-- This many WRITTEN entries, a ring of 16 with threshold 10, these causes enabled and all of them pending before. -/
def pendingBefore (written : Nat) (enabled : BitVec 6) (s : State) : State :=
  { filled written s with
    settings := ⟨1, some { settingsOn with threshold := 10, causeEnable := enabled }⟩
    irq := 0x3F }

/-- The pending set after a bus reset: empty below the threshold, DIGEST at it with the RESTART record alone and with the
PROVING record too, PROVING of the run, and each masked by the enable set; with nothing in hand, with an item that only ends,
and at the end of a reload. -/
theorem test_hyp_BusResetCauses :
    let run (s : State) := (after (.busReset false) s).map (fun t => (t.irq, resetCauses s t))
    let armed (written : Nat) (enabled : BitVec 6) : State := pendingBefore written enabled (running .armed twoPoints)
    let ends (s : State) : State :=
      { s with engine := { s.engine with job := some ⟨true, Vector.replicate 16 (0, false), none, none, [.await], [], none⟩ } }
    let reloads (s : State) : State :=
      { s with engine := { s.engine with
          job := some ⟨true, Vector.replicate 16 (0, false), none, none, [], [.reloadEnd 0 5], none⟩
          reload := some ⟨5, 0, 0⟩ } }
    run (pendingBefore 8 0x3F on) = some (0, 0) ∧ run (pendingBefore 9 0x3F on) = some (8, 8)
      ∧ run (pendingBefore 16 0x3F on) = some (8, 8) ∧ run (pendingBefore 9 0x37 on) = some (0, 0)
      ∧ run (armed 7 0x3F) = some (0x10, 0x10) ∧ run (armed 8 0x3F) = some (0x18, 0x18)
      ∧ run (armed 8 0x2F) = some (8, 8) ∧ run (armed 8 0) = some (0, 0)
      ∧ run (ends (armed 8 0x3F)) = some (0x18, 0x18) ∧ run (reloads (armed 8 0x3F)) = some (0x18, 0x18)
      ∧ run (ends (pendingBefore 8 0x3F on)) = some (0, 0) ∧ run (reloads (pendingBefore 8 0x3F on)) = some (0, 0) := by
  decide +kernel

def yielding : State := { on with path := { on.path with yield := true } }

theorem test_hyp_YieldTurnedAway : yielding.path.current = none ∧ lockedWordOf 7 yielding = none
    ∧ yielding.path.yield = true ∧ aligned .half 0xFFFFFE = true ∧ aligned .word 0xFFFFFC = true := by decide +kernel

def locked (tag : Fin 8) (a : Addr) : State := { on with path := { on.path with lock := some (tag, a) } }

theorem test_hyp_LockBrokenByLockedMaster : (locked 3 0x20000).path.current = none
    ∧ (locked 3 0x20000).path.lock = some (3, 0x20000) ∧ aligned .byte 0xFFFFFF = true
    ∧ aligned .word 0x20004 = true ∧ (0x20004 : Addr) ≠ 0x20000 := by decide +kernel

theorem test_hyp_LockPairCarriedOut : (locked 3 0xFFFFFC).path.lock = some (3, 0xFFFFFC) ∧ aligned .word 0xFFFFFC = true
    ∧ (locked 3 0xFFFFFC).path.current = none ∧ lockedWordOf 2 (locked 3 0xFFFFFC) = none
    ∧ (locked 3 0xFFFFFC).path.yield = false ∧ (locked 3 0xFFFFFC).path.lock.isSome = true := by decide +kernel

theorem test_hyp_VectorReadAnswers : lockedWordOf 0 on = none ∧ on.path.current = none ∧ on.irq = 0
    ∧ (0x3F#6).getLsbD 0 = true ∧ (∀ j : Fin 6, j < 0 → (0x3F#6).getLsbD j = false)
    ∧ (0x20#6).getLsbD (5 : Fin 6) = true ∧ ∀ j : Fin 6, j < 5 → (0x20#6).getLsbD j = false := by decide +kernel

theorem test_hyp_MisalignedTurnedAway : aligned .half 1 = false ∧ aligned .word 0xFFFFFE = false := by decide

theorem test_hyp_OpenTo : OpenTo 0 on ∧ OpenTo 7 (locked 3 0) := by
  unfold OpenTo
  decide +kernel

/-- Words beside the control area and the window, at both ends. -/
theorem test_hyp_PlainWritesDecoded : isControl on (wordOf 0x8000) = false ∧ windowOf on (wordOf 0x8000) = none
    ∧ isControl on (nextWord 0xFFF8) = false ∧ windowOf on (nextWord 0xFFF8) = none ∧ windowOf on 0x10100 = none
    ∧ aligned .word 0xFFF8 = true := by decide +kernel

theorem test_hyp_LockReadsDecoded : isControl on 0x7FFC = true ∧ isControl on 0x8000 = false ∧ windowOf on 0x8000 = none
    ∧ (windowOf on 0x100FC).isSome = true ∧ isControl on 0x100FC = false ∧ on.asm.records.get 1 = none
    ∧ (withFrame 1 open4 on).asm.records.get 1 = some open4 ∧ on.path.lock = none := by decide +kernel

theorem test_hyp_ControlWriteRefused : isControl on (wordOf 0) = true ∧ isControl on (wordOf 0x7FFF) = true
    ∧ (1 : Fin 8).val ≠ on.path.controlTag.toNat ∧ (0 : Fin 8).val = on.path.controlTag.toNat
    ∧ isOwned on (wordOf 0x1800) = true ∧ isOwned on 0x1F7C = true ∧ isOwned on 0x1F80 = false
    ∧ isOwned on (nextWord 0x17FC) = true := by decide +kernel

theorem test_hyp_CommitWriteHeld : controlOffset on 0x3C = some 0x3C ∧ isOwned on 0x3C = false
    ∧ commitAt 0x3C = some .globalSettings ∧ commitAt 0x13FC = some (.classification 63) ∧ commitAt 0x40 = none
    ∧ commandAt 0x40 = none ∧ isOwned on (nextWord 0x3C) = false ∧ commitAt 0x58 = none ∧ commandAt 0x58 = none
    ∧ commitAt (0x58 + 4) = some .band := by decide +kernel

/-- A pair whose second word is a command word, one of plain words of the area, and the pairs across its two ends. -/
theorem test_hyp_ControlPairs : controlOffset on 0x14F8 = some 0x14F8 ∧ commandAt (0x14F8 + 4) = some 7
    ∧ windowOf on (nextWord 0x40) = none ∧ isOwned on 0x40 = false ∧ isOwned on (nextWord 0x40) = false
    ∧ commitAt (0x40 + 4) = none ∧ commandAt (0x40 + 4) = none
    ∧ controlOffset on 0x7FFC = some 0x7FFC ∧ isControl on (nextWord 0x7FFC) = false
    ∧ windowOf on (nextWord 0x7FFC) = none ∧ isOwned on (nextWord 0x7FFC) = false
    ∧ isControl on 0xFFFFFC = false ∧ windowOf on 0xFFFFFC = none ∧ isControl on (nextWord 0xFFFFFC) = true
    ∧ isOwned on (nextWord 0xFFFFFC) = false := by decide +kernel

theorem test_hyp_CommandWriteOffered : controlOffset on 0x14FC = some 0x14FC ∧ isOwned on 0x14FC = false
    ∧ commandAt 0x14FC = some 7 ∧ commandAt 0x141C = some 0 ∧ isOwned on (nextWord 0x14FC) = false
    ∧ on.cmd.accepted.get 7 = false ∧ on.engine.workQueue.length < 15
    ∧ 15 ≤ (queued (List.replicate 15 .marker) on).engine.workQueue.length := by decide +kernel

theorem test_hyp_HeadWordHeld : (0x100F0 : Addr).toNat % 16 = 0 ∧ windowOf on 0x100F0 = some 0 ∧ headKind 15 ≠ 0
    ∧ on.inEffect.enable = true ∧ on.asm.records.get 1 = none
    ∧ (withFrame 1 open4 on).asm.records.get 1 = some open4
    ∧ (0x100F0 : Addr) ≠ open4.address + BitVec.ofNat 24 (4 * open4.next) := by decide +kernel

/-- The last head place of the window: a frame of four words fits there, one of eight does not. -/
theorem test_hyp_HeadPairs : isHead on 0x100F0 1 ∧ isHead on 0x100F0 8 ∧ (windowOf on (nextWord 0x100F0)).isSome = true
    ∧ (frameOpened on 1 0 0x100F0 1).2 = true ∧ (frameOpened on 1 0 0x100F0 8).2 = false := by
  unfold isHead
  decide +kernel

/-- Pairs whose first word takes no role: beside another such word, beside a head, and before the window. -/
theorem test_hyp_StrayPairs : ¬isHead on 0x100F8 1 ∧ windowOf on (nextWord 0x100F8) = some 0
    ∧ ¬isHead on (nextWord 0x100F8) 1 ∧ ¬isHead on 0x1000C 1 ∧ isHead on (nextWord 0x1000C) 1
    ∧ (0x1000C : Addr) ≠ open4.address + BitVec.ofNat 24 (4 * open4.next)
    ∧ isControl on 0xFFFC = false ∧ windowOf on 0xFFFC = none ∧ (windowOf on (nextWord 0xFFFC)).isSome = true
    ∧ ¬isHead on (nextWord 0xFFFC) 0
    ∧ nextWord 0xFFFC ≠ open4.address + BitVec.ofNat 24 (4 * open4.next) := by
  unfold isHead
  decide +kernel

/-- Words that alone lie in the window: a second word that is a head, or the next word of a frame that began below it; and
a first word at the window's end, with control words before a window moved behind the area. -/
theorem test_hyp_LoneWindowWords :
    let below : OpenFrame := { open4 with address := 0xFFFC }
    let behind : State := { on with settings := ⟨1, some { settingsOn with
      windows := #v[⟨true, 0x8000, 0x100⟩, ⟨false, 0, 0⟩, ⟨false, 0, 0⟩, ⟨false, 0, 0⟩] }⟩ }
    isHead on (nextWord 0xFFFC) 1 ∧ nextWord 0xFFFC = below.address + BitVec.ofNat 24 (4 * below.next)
      ∧ isPlain below below.next ∧ windowOf on 0x100FC = some 0 ∧ windowOf on (nextWord 0x100FC) = none
      ∧ isControl on (nextWord 0x100FC) = false ∧ ¬isHead on 0x100FC 1
      ∧ (0x100FC : Addr) = ({ open4 with address := 0x100F0, next := 3 } : OpenFrame).address + BitVec.ofNat 24 (4 * 3)
      ∧ windowOf behind 0x7FFC = none ∧ windowOf behind (nextWord 0x7FFC) = some 0 ∧ isOwned behind 0x7FFC = false
      ∧ (0 : Fin 8).val = behind.path.controlTag.toNat := by
  unfold isHead isPlain
  decide +kernel

theorem test_hyp_StrayWordPasses : aligned .word 0x100FC = true ∧ windowOf on (wordOf 0x100FC) = some 0
    ∧ (0x100FC : Addr).toNat % 16 ≠ 0 ∧ headKind 0x10 = 0 ∧ on.asm.records.get 2 = none
    ∧ (withFrame 2 open4 on).asm.records.get 2 = some open4
    ∧ (0x100FC : Addr) ≠ open4.address + BitVec.ofNat 24 (4 * open4.next) ∧ Size.byte ≠ Size.word
    ∧ windowOf on (wordOf 0x10003) = some 0 := by decide +kernel

/-- The plain, the value and the check word of a four-word frame, with and without a match. -/
theorem test_hyp_ContinuationHeld : aligned .word 0x10004 = true ∧ windowOf on 0x10004 = some 0
    ∧ (withFrame 1 open4 on).asm.records.get 1 = some open4
    ∧ (0x10004 : Addr) = open4.address + BitVec.ofNat 24 (4 * open4.next)
    ∧ open4.next + 1 ≠ open4.length ∧ ¬(open4.length = 4 ∧ open4.next = 2)
    ∧ ({ open4 with next := 2 } : OpenFrame).length = 4 ∧ open4.lookup = some (lookup action)
    ∧ ({ open4 with next := 3 } : OpenFrame).next + 1 = open4.length := by decide +kernel

/-- The pairs of an eight-word frame, and a check word before a head. -/
theorem test_hyp_ContinuationPairs :
    let f : OpenFrame := { open4 with length := 8 }
    isPlain f f.next ∧ isPlain f (f.next + 1) ∧ isPlain { f with next := 6 } 6 ∧ isPlain open4 open4.next
      ∧ ({ f with next := 6 } : OpenFrame).next + 2 = f.length ∧ windowOf on (nextWord 0x10004) = some 0
      ∧ isHead on (nextWord 0x1000C) 1 ∧ ¬isHead on (nextWord 0x1000C) 0 := by
  unfold isPlain isHead
  decide +kernel

def readTxn : Transaction := ⟨1, .read, 0x1800, .word, 0, 0⟩
def readAccess : Access := ⟨.read, .word, 0x1800, 0, 0⟩
def claiming (t : Transaction) (phase : Phase) (s : State) : State :=
  { s with path := { s.path with current := some ⟨t, phase⟩ } }
def tornPoint (s : State) : State := { s with pub := { s.pub with records := upd s.pub.records 0 ⟨.torn, .owed, 1⟩ } }

theorem test_hyp_PortGrantedToTransaction :
    let s := claiming readTxn (.pass readAccess []) on
    s.path.port = none ∧ s.path.current = some ⟨readTxn, .pass readAccess []⟩ ∧ s.pub.queue = []
      ∧ (wordsOf readTxn).any (unreadable s) = false ∧ (wordsOf readTxn).any (unreadable (tornPoint s)) = true := by
  decide +kernel

/-- A ring of 32 entries owns a word that a ring of 16 does not. -/
theorem test_hyp_OwnedWriteAtGrant :
    let t : Transaction := ⟨0, .write, 0x4200, .word, 9, 0⟩
    let c : Current := ⟨t, .pass ⟨.write, .word, 0x4200, 9, 0⟩ []⟩
    let larger : State := { on with settings := ⟨1, some { settingsOn with ringSize := 32 }⟩ }
    passesWrite c = true ∧ (wordsOf t).any (isOwned on) = false ∧ (wordsOf t).any (isOwned larger) = true := by
  decide +kernel

def publishing (s : State) : State := { s with pub := { s.pub with queue := [.publish 0 (recordContent s 0)] } }

theorem test_hyp_PortGrantedToOwnItem : (publishing on).path.port = none ∧ (publishing on).path.current = none
    ∧ (publishing on).path.lock = none ∧ (publishing on).pub.begun = none
    ∧ (publishing on).pub.queue = .publish 0 (recordContent on 0) :: []
    ∧ (publishing (locked 0 0)).path.lock.isSome = true
    ∧ (∀ r content, OwnItem.status 1 2 ≠ .publish r content)
    ∧ (ownOnPort (.status 1 2) ⟨0, ⟨0, [], 0, false⟩⟩ on).pub.begun = some ⟨0, ⟨0, [], 0, false⟩⟩ := by
  refine ⟨?_, ?_, ?_, ?_, ?_, ?_, fun r content h => (nomatch h), ?_⟩ <;> decide +kernel

theorem test_hyp_PassThroughCompletes :
    PassWaits (onPort .passThrough readTxn (.pass ⟨.read, .word, 0x1800, 0, 0⟩ []) on) readTxn
      ⟨.read, .word, 0x1800, 0, 0⟩ [] := ⟨rfl, rfl⟩

/-- The release word of the WRITTEN entry, of the RESERVED one, of a FREE position at the ring's end, and another word. -/
theorem test_hyp_DigestReleasedByRead : (ringed on).pub.digest.oldest < (ringed on).inEffect.ringSize
    ∧ (ringed on).pub.digest.occupied.length ≤ (ringed on).inEffect.ringSize ∧ (ringed on).inEffect.ringSize ≤ 256
    ∧ (ringed on).pub.digest.occupied[0]? = some ⟨true, 7, 0⟩
    ∧ wordOf 0x407E = controlAddr on (0x4000 + 32 * ((3 + 0) % 16) + 28)
    ∧ (ringed on).pub.digest.occupied[1]? = some ⟨false, 8, 0⟩
    ∧ wordOf 0x409C = controlAddr on (0x4000 + 32 * ((3 + 1) % 16) + 28)
    ∧ (∀ i, i < 2 → (3 + i) % 16 ≠ 15) ∧ wordOf 0x41FC = controlAddr on (0x4000 + 32 * 15 + 28)
    ∧ ∀ k, k < 16 → wordOf 0x4000 ≠ controlAddr on (0x4000 + 32 * k + 28) := by decide +kernel

def writeTxn : Transaction := ⟨1, .write, 0x1000C, .word, 9, 0⟩
def writeAccess : Access := ⟨.read, .word, 0x1000C, 0, 0⟩

theorem test_hyp_HeldWordsSettle :
    PassWaits (onPort .passThrough writeTxn (.pass writeAccess [⟨0x1000C, false, false, .closes true⟩])
        (withFrame 1 open4 on)) writeTxn writeAccess [⟨0x1000C, false, false, .closes true⟩]
      ∧ (withFrame 1 open4 on).asm.records.get 1 = some open4 ∧ on.engine.workQueue.length < 15
      ∧ 15 ≤ (queued (List.replicate 15 .marker) on).engine.workQueue.length := by
  refine ⟨⟨rfl, rfl⟩, ?_⟩
  decide +kernel

/-- For the statements about held words, of every list of them. -/
theorem test_hyp_PassWaits (t : Transaction) (holds : List WordHold) (s : State) :
    let access : Access := ⟨.read, .word, t.addr, 0, 0⟩
    PassWaits (onPort .passThrough t (.pass access holds) s) t access holds := ⟨rfl, rfl⟩

def fetching (f : Fetch) : State :=
  onPort .fetch writeTxn (.fetch (.commit .globalSettings) f [1]) on

theorem test_hyp_FetchResponseTaken : FetchWaits (fetching ⟨15, [], 0, false⟩) writeTxn writeAccess
      (.commit .globalSettings) ⟨15, [], 0, false⟩ [1]
    ∧ FetchWaits (fetching ⟨15, [1], 6, true⟩) writeTxn writeAccess (.commit .globalSettings) ⟨15, [1], 6, true⟩ [1]
    ∧ FetchWaits (fetching ⟨15, [1], 7, true⟩) writeTxn writeAccess (.commit .globalSettings) ⟨15, [1], 7, true⟩ [1] :=
  ⟨⟨rfl, rfl⟩, ⟨rfl, rfl⟩, ⟨rfl, rfl⟩⟩

/-- A complete slot entry: refused for its station, accepted, and one that a run protects; and a ring-size change. -/
theorem test_hyp_FetchedEntryDecided : [0x301, 0].length + 1 = 3
    ∧ decideEntry on (.slot 0) [0x2001, 0, 0, 0x80000001] = .refused .invalidEntry
    ∧ decideEntry on (.slot 0) [0x1F01, 0, 0, 0x80000001] = .accepted
    ∧ decideEntry (running .armed twoPoints) (.point 1) [] = .refused .provingProtected
    ∧ changesRingSize on (.slot 0) [] = false
    ∧ changesRingSize on .globalSettings
        [0x10000, 0x110064, 0, 0, 0, 0, 0, 0, 0, 0, 0, 0, 0, 0, 0, 0x80000001] = true
    ∧ decideEntry (ringed on) .globalSettings
        [0x10000, 0x110064, 0, 0, 0, 0, 0, 0, 0, 0, 0, 0, 0, 0, 0, 0x80000001] = .refused .ringBusy := by decide +kernel

/-- Entry words by index, all others 0. -/
def entryWords (fields : List (Nat × Word)) : List Word :=
  (List.range 16).map (fun i => ((fields.find? (fun x => x.1 == i)).map (·.2)).getD 0)

def globalWords (w0 w1 w2 base length : Word) : List Word :=
  entryWords [(0, w0), (1, w1), (2, w2), (3, base), (4, length), (15, 0x80000001)]

/-- Each reader, with its fields at both ends of their ranges and just outside. -/
theorem test_hyp_EntryFieldsRead :
    let reads (fields : List (List (Nat × Word))) (reader : List Word → Bool) := fields.map (fun f => reader (entryWords f))
    let global (w0 w1 base length : Word) : Bool := (readGlobal (globalWords w0 w1 0x10000 base length)).isSome
    [global 0x10000 0x100064 0 16, global 0x70000 0x1004EA60 0xFFFFF0 16, global 0x10000 0x1000064 0 0x1000000] =
        [true, true, true]
      ∧ [global 0 0x100064 0 16, global 0x10000 0x64 0 16, global 0x10000 0x1100064 0 16, global 0x10000 0x150064 0 16,
          global 0x10000 0x100063 0 16, global 0x10000 0x10EA61 0 16, global 0x10000 0x100064 0xFFFFF0 32,
          global 0x10000 0x100064 0 0, global 0x10000 0x100064 8 16] =
        [false, false, false, false, false, false, false, false, false]
      ∧ reads [[(0, one32), (1, two32)], [(1, one32), (2, two32), (3, 0x40400000), (4, 0x40800000), (5, 0x40A00000),
          (6, 0x40C00000)]] (fun ws => (readBand ws).isSome) = [false, true]
      ∧ reads [[(0, 6), (1, one32), (2, one32)], [(0, 7)], [(0, 6), (1, two32), (2, one32)], [(1, 0x7FC00000)]]
          (fun ws => (readChecker ws).isSome) = [true, false, false, false]
      ∧ reads [[(3, 0x1200)], [(3, 0x300)], [(1, 0x7F800000)]] (fun ws => (readConversion ws).isSome) =
          [true, false, false]
      ∧ reads [[(0, one32), (1, one32), (2, two32), (5, 1)], [(0, one32), (1, one32), (2, two32)],
          [(0, one32), (1, one32), (2, one32), (5, 1)]] (fun ws => (readPoint ws).isSome) = [true, false, false]
      ∧ reads [[(0, 0x7100), (1, 0xF101F), (2, one32)], [(0, 0x8100), (1, 0x10100), (2, one32)],
          [(0, 0xF000), (1, 0x10100), (2, one32)], [(1, 0x11100), (2, one32)], [(1, 0x100), (2, one32)],
          [(1, 0x10100), (2, one32), (3, one32)]] (fun ws => (readSegment ws).isSome) =
          [true, false, true, false, false, false]
      ∧ reads [[(0, 0x1F01)], [(0, 0x2001)]] (fun ws => (readSlot ws).isSome) = [true, false]
      ∧ reads [[(2, 0x1F1F0000), (7, 0x100)], [(2, 0x3F000000), (7, 0x100)], [(2, 0x200000), (7, 0x100)],
          [(2, 2), (7, 0x100)], [(0, 0x80000), (1, 0xF0000), (2, 0x72), (7, 0x100)],
          [(0, 0x80000), (1, 0xF0000), (2, 0x80), (7, 0x100)], [(7, 0)], [(7, 0x300)]]
          (fun ws => (readClass ws).isSome) = [true, true, false, false, true, false, false, false]
      ∧ reads [[(3, 0x3F0A3F04), (7, 0x200)], [(3, 0x3F0A4004), (7, 0x200)], [(3, 0x3F0A0005), (7, 0x200)],
          [(3, 0x3F080000), (7, 0x200)], [(0, 0x3000300), (3, 0x3F0A0000), (7, 0x200)]]
          (fun ws => (readClass ws).isSome) = [true, false, false, false, false] := by decide +kernel

def holding (purpose : Purpose) (words : List Word) (n : Nat) : State :=
  onPort .heldWrite writeTxn (.held purpose words n) on

/-- For the statements about held writes, of every purpose and number of attempts. -/
theorem test_hyp_HeldWrites (purpose : Purpose) (words : List Word) (n : Nat) :
    HeldWaits (holding purpose words n) writeTxn writeAccess purpose words n := ⟨rfl, rfl⟩

/-- Unloading an UNLOADED point and loading the very copy it has ask for nothing; another generation or field is published. -/
theorem test_hyp_HeldCommitLoadsPoint :
    let words (limit commit : Word) : List Word :=
      entryWords [(0, one32), (1, one32), (2, two32), (3, 1000), (4, 1000), (5, limit), (6, 1), (15, commit)]
    let load (ws : List Word) (s : State) := (after (.heldWriteResponse (done 0))
      (onPort .heldWrite writeTxn (.held (.commit (.point 0)) ws 0) s)).map
      (fun t => ((t.engine.pointEntries.get 0).generation, t.pub.queue.length))
    readPoint (words 1 0x80000001) = some pointEntry
      ∧ load (words 1 9) on = some (9, 0) ∧ load (words 1 0x80000009) on = some (9, 1)
      ∧ load (words 1 0x80000001) twoPoints = some (1, 0) ∧ load (words 1 0x80000009) twoPoints = some (9, 1) ∧ load (words 2 0x80000009) twoPoints = some (9, 1)
      ∧ load (words 1 9) twoPoints = some (9, 1) := by decide +kernel

/-- An enable with a place in the ring, without one, and with a ring that the same commit resizes. -/
theorem test_hyp_EnableReservesRestart :
    let load (w1 : Word) (entries : Nat) := (after (.heldWriteResponse (done 0))
      (onPort .heldWrite writeTxn (.held (.commit .globalSettings) (globalWords 0x10001 w1 8 0 0) 0)
        { filled entries on with settings := State.reset.settings })).map (fun t =>
      [t.pub.digest.occupied.length, t.pub.digest.oldest, t.pub.digestLost.toNat, t.irq.toNat, t.pub.queue.length])
    load 0x1000064 14 = some [16, 3, 0, 8, 1] ∧ load 0x1000064 16 = some [16, 3, 1, 8, 0]
      ∧ load 0x1010064 14 = some [1, 0, 0, 0, 1] := by decide +kernel

theorem test_hyp_HeldCommitLoadsGlobalSettings :
    (withFrame 1 open4 on).asm.records.get 1 = some open4 ∧ windowOf on open4.address = some 0
      ∧ windowChanged (on.inEffect.windows.get 0) (State.reset.inEffect.windows.get 0) = true
      ∧ windowChanged (on.inEffect.windows.get 0) (on.inEffect.windows.get 0) = false
      ∧ on.inEffect.enable = true ∧ State.reset.inEffect.enable = false ∧ twoPoints.pointEnabled 1 = true := by
  decide +kernel

theorem test_hyp_LockPairResponses :
    (onPort .lockedWrite writeTxn (.locked 7) on).path.port = some ⟨.lockedWrite, writeAccess, false⟩
      ∧ (onPort .lockedWrite writeTxn (.locked 7) on).path.current = some ⟨writeTxn, .locked 7⟩ := by decide +kernel

def ownAccessOnPort : Access := ⟨.write, .word, 0x1418, 0, 0⟩

/-- For the statements about own items, of every kind and progress. -/
theorem test_hyp_OwnItems (it : OwnItem) (pr : Progress) :
    OwnWaits (ownOnPort it pr (ringed on)) it [] pr ownAccessOnPort ∧ (ownOnPort it pr (ringed on)).engine.job = none :=
  ⟨⟨rfl, rfl, rfl⟩, rfl⟩

theorem test_hyp_OwnItemKinds : writes (.status 0 0) ∧ writes (.publish 0 []) ∧ 1 < (ringed on).pub.digest.occupied.length
    ∧ (OwnItem.digest ((3 + 1) % 16) []).count ≤ 4 + 1 ∧ (0 + 1) < (OwnItem.outbound 31 []).count :=
  ⟨fun _ h => (nomatch h), fun _ h => (nomatch h), by decide +kernel, by decide, by decide⟩

/-- The words of a FAULT record of this sequence. -/
def recordWords (sequence : BitVec 16) : List Word := digestWords (digestHead .fault 0 sequence) [] 0

/-- A DIGEST item is that of an occupied entry, at its position and with its sequence, or of none. -/
theorem test_hyp_DigestItems : isItemOf (ringed on) 1 4 (recordWords 8) ∧ (∀ i, ¬isItemOf (ringed on) i 20 (recordWords 8))
    ∧ (ringed on).pub.digest.occupied.length ≤ (ringed on).inEffect.ringSize
    ∧ (ringed on).pub.digest.oldest < (ringed on).inEffect.ringSize := by
  have hsize : 0 < (ringed on).inEffect.ringSize ∧ (ringed on).inEffect.ringSize ≤ 20 := by decide +kernel
  refine ⟨⟨by decide +kernel, ⟨false, 8, 0⟩, rfl, by decide +kernel⟩, fun i h => ?_, by decide +kernel, by decide +kernel⟩
  exact absurd (h.1 ▸ Nat.mod_lt _ hsize.1) (Nat.not_lt_of_le hsize.2)

/-- The item of the RESERVED entry of sequence 8, at position 4, makes it WRITTEN, done or failed (R172); an item left from a
larger ring, or of a sequence freed there, changes no entry (log 24). -/
theorem test_digestItemEnds :
    let ends (position : Nat) (sequence : BitVec 16) (r : Response) := (after (.ownAccessResponse r r)
      (ownOnPort (.digest position (recordWords sequence)) ⟨4, ⟨0, [], 0, false⟩⟩ (ringed on))).map (fun t =>
        (t.pub.digest.occupied.take 2).map (·.written))
    [ends 4 8 (done 0), ends 4 8 ⟨.fault, 0⟩, ends 20 8 (done 0), ends 4 2 (done 0), ends 4 2 ⟨.fault, 0⟩] =
      [some [true, true], some [true, true], some [true, false], some [true, false], some [true, false]] := by
  decide +kernel

def reloadJob : Job := ⟨true, Vector.replicate 16 (0, false), none, none, [], [.reloadEnd 0 5], none⟩

def reloading : State :=
  let s := ownOnPort (.fetch (.slot 7)) ⟨0, ⟨4, [1, 2], 0, false⟩⟩ on
  { s with engine := { s.engine with job := some reloadJob, reload := some ⟨136, 0, 0⟩ } }

theorem test_hyp_FetchItemDecided :
    OwnWaits reloading (.fetch (.slot 7)) [] ⟨0, ⟨4, [1, 2], 0, false⟩⟩ ownAccessOnPort
      ∧ reloading.engine.job = some reloadJob ∧ reloadJob.acts = [] ∧ reloadJob.stages = [.reloadEnd 0 5]
      ∧ reloading.engine.reload = some ⟨136, 0, 0⟩ ∧ 136 + 1 < 138
      ∧ decideEntry on (.slot 7) [1, 2, 0, 0x80000001] = .accepted
      ∧ decideEntry on (.slot 7) [0x2000, 2, 0, 0x80000001] = .refused .invalidEntry :=
  ⟨⟨rfl, rfl, rfl⟩, rfl, rfl, rfl, rfl, by decide, by decide +kernel, by decide +kernel⟩

/-- A STATUS item that fails leaves its own word owed, or the word that its slot owed already. -/
theorem test_hyp_FailedStatusOwed :
    let run (owed : List (Fin 8 × Word)) := (after (.ownAccessResponse ⟨.fault, 0⟩ ⟨.fault, 0⟩)
      (ownOnPort (.status 3 7) ⟨0, ⟨0, [], 0, false⟩⟩ { on with pub := { on.pub with owedStatus := owed } })).map (·.pub.owedStatus)
    run [] = some [(3, 7)] ∧ (run [(3, 9)]).map (·.contains (3, 9)) = some true := by decide +kernel

/-- The engine waits to queue a later FETCH item. -/
def queueingJob : Job := { reloadJob with offer := some (.fetch (.slot 7)), acts := [.await] }

theorem test_hyp_ReloadGoesOn (r : Reload) (h : r.finished = 136) :
    ReloadGoesOn queueingJob r ∧ ReloadGoesOn reloadJob r :=
  ⟨.inl ⟨rfl, [], rfl⟩, .inr ⟨rfl, by omega, 0, 5, rfl⟩⟩

/-- The last item of a reload, and the two ends of a failure; a publication of the fault record waits behind it. -/
theorem test_hyp_OwnItemEnds : reloadJob.offer = none ∧ 138 ≤ 137 + 1
    ∧ on.pub.heldDigests.any (·.byEngine) = false ∧ endsFailed ⟨0, ⟨0, [], 0, false⟩⟩ ⟨.fault, 0⟩
    ∧ endsFailed ⟨0, ⟨0, [], 7, false⟩⟩ ⟨.retry, 0⟩
    ∧ (requestPublication accessFaultRecordNo on).pub.queue = [.publish accessFaultRecordNo (recordContent on 26)]
    ∧ ((requestPublication accessFaultRecordNo on).pub.records.get accessFaultRecordNo).mark = .queued := by
  unfold endsFailed
  decide +kernel

def answering : Job := ⟨true, Vector.replicate 16 (0, false), none, none, [.await], [], some (.status 2 7)⟩

theorem test_hyp_PlaceGivenInOrder : (tornPoint on).pub.queue.length < 32 ∧ (tornPoint on).pub.heldDigests = []
    ∧ (tornPoint on).engine.job = none ∧ ((tornPoint on).pub.records.get 0).mark = .owed
    ∧ (∀ q : Fin 28, q < 0 → ((tornPoint on).pub.records.get q).mark ≠ .owed)
    ∧ answering.offer = some (.status 2 7) ∧ answering.acts = [.await] ∧ answering.stages = []
    ∧ (∀ r, (on.pub.records.get r).mark ≠ .owed)
    ∧ [((7 : Fin 8), (9 : Word)), (3, 8)].find? (fun x => x.1 == 3) = some (3, 8) := by
  decide +kernel

/-- A place given while a reload waits for its FETCH items: to an OWED record, to an owed status, and to nothing. -/
theorem test_hyp_PlaceInReload :
    let waits (s : State) : State := { s with engine := { s.engine with job := some reloadJob, reload := some ⟨136, 0, 0⟩ } }
    let owed : State := { on with pub := { on.pub with owedStatus := [(7, 9), (3, 8)] } }
    let given (s : State) := (after .queuePlaceGiven (waits s)).map (fun t => (t.pub.queue.head?, t.engine.job))
    (waits on).engine.reload = some ⟨136, 0, 0⟩ ∧ 136 < 138 ∧ reloadJob.offer = none ∧ reloadJob.acts = []
      ∧ reloadJob.stages = [.reloadEnd 0 5]
      ∧ given (tornPoint on) = some (some (.publish 0 (recordContent on 0)), some reloadJob)
      ∧ given owed = some (some (.status 3 8), some reloadJob) ∧ given on = some (none, some reloadJob) := by decide +kernel

theorem test_hyp_LowestOwedSlot : ∀ x ∈ [((7 : Fin 8), (9 : Word)), (3, 8)], 3 ≤ x.1 := by simp

/-- A DIGEST item held back before a waiting producer's item, and one that the engine itself waits for. -/
theorem test_hyp_HeldDigestFirst :
    let s := { on with pub := { on.pub with heldDigests := [⟨3, [], false⟩] }, engine := { on.engine with job := some answering } }
    s.pub.queue.length < 32 ∧ s.pub.heldDigests = [⟨3, [], false⟩] ∧ s.engine.job = some answering
      ∧ answering.offer.isSome = true ∧ answering.acts = [.await]
      ∧ ({ answering with offer := none } : Job).stages = []
      ∧ ([] : List HeldDigest).any (·.byEngine) = false ∧ [HeldDigest.mk 4 [] true].any (·.byEngine) = true := by
  decide +kernel

theorem test_hyp_ReservationKeptOrLost : on.pub.digest.sizePending = false
    ∧ on.pub.digest.occupied.length < on.inEffect.ringSize
    ∧ ¬((List.replicate 16 (⟨true, 0, 0⟩ : DigestEntry)).length < on.inEffect.ringSize) := by decide +kernel

/-- The bounds that the records of a state rest on. -/
theorem test_hyp_RecordWordsWritten : SegmentsSound twoPoints ∧ WorkQueueBounded twoPoints ∧ OwnQueueBounded twoPoints
    ∧ (sample action 0 0).isSummary = false ∧ (summary action).isSummary = true ∧ on.path.fault = none
    ∧ (faulted on).path.fault = some ⟨0, .read, .word, 0, .lockBroken, 2⟩ := by
  refine ⟨fun g => ?_, ?_, ?_, ?_⟩
  · have e : twoPoints.balance.entries.get g = Loaded.unloaded ∧ twoPoints.balance.segments.get g = Segment.initial := by
      revert g
      decide +kernel
    rw [e.1, e.2]
    exact ⟨⟨rfl, rfl, rfl, rfl, rfl⟩, by decide⟩
  · unfold WorkQueueBounded
    decide +kernel
  · unfold OwnQueueBounded
    decide +kernel
  · decide +kernel

/-- One below the period, at it, and stopped; with and without a marker. -/
theorem test_hyp_TimerAdvancesAndExpires : on.timer.period = some 100 ∧ on.timer.running = true
    ∧ (99#16).toNat < (100#16).toNat ∧ State.reset.timer.running = false
    ∧ WorkItem.marker ∉ on.engine.workQueue ∧ WorkItem.marker ∈ (queued [.marker] on).engine.workQueue := by
  decide +kernel

/-- What a taken item whose action captures leaves in all: ring entries, entry 5's armed flag, whether something is in hand;
and TO DISABLED POINT, slot 7's count, RELAYED and the sample count of point 0. -/
def capturing (disposition : Disposition) (capture : CaptureMode) (relays : Bool) (s : State) : Option (List Nat) :=
  let a := { action with disposition := disposition, capture := capture, target := if relays then 7 else 0 }
  let f : FrameItem := if relays then summary a else sample a 1010 f64One
  (after .takeFrameItem (queued [.frame f] s)).map (fun t => [t.pub.digest.occupied.length, (t.cls.armed.get 5).toNat,
    t.engine.job.isSome.toNat, t.engine.toDisabledPoint.toNat, (t.engine.slots.get 7).count, t.balance.relayed.toNat,
    (t.engine.points.get 0).sampleCount.toNat])

/-- Captures of every disposition; a NEXT whose armed entry has another generation, or is a SECOND entry, takes none; a
capture without room keeps the item in hand. -/
theorem test_hyp_FrameItemDispatched :
    let armed (c : ClassEntry) (s : State) : State := withEntry 5 c true s
    let base : State := withPoint 0 PointRecord.initial (withSlot 7 on)
    let another (s : State) : State :=
      { s with cls := { s.cls with entries := upd s.cls.entries 5 ⟨2, some nextEntry⟩, armed := upd s.cls.armed 5 true } }
    let second : ClassEntry := .second ⟨0, 0, 0, 0, 0, 0, 0, 0, 0, 0, 0, 0, 0xF, 0xF⟩ ⟨.none, 0, true, none, .next, false⟩
    let crowded : State := { base with pub := { base.pub with queue := List.replicate 32 (.status 1 1) } }
    [capturing .passOnly .next false (armed nextEntry base), capturing .process .next false (armed nextEntry base),
        capturing .process .every false on, capturing .process .every true base, capturing .relay .next true (armed nextEntry base),
        capturing .processAndRelay .every true base, capturing .process .next false (another base),
        capturing .process .next false (armed second base), capturing .process .every false crowded] =
      [some [1, 0, 0, 0, 0, 0, 0], some [1, 0, 0, 0, 0, 0, 1], some [1, 0, 0, 1, 0, 0, 0], some [1, 0, 0, 0, 1, 0, 0],
        some [1, 0, 0, 0, 0, 1, 0], some [1, 0, 0, 0, 1, 1, 0], some [0, 1, 0, 0, 0, 0, 1], some [0, 1, 0, 0, 0, 0, 1],
        some [1, 0, 1, 0, 0, 0, 0]] := by decide +kernel

/-- A capture with the last place, without one, and lost for want of a FREE ring entry; and no capture with none. -/
theorem test_hyp_RoomFor :
    let with_ (n written : Nat) : State := { filled written on with pub := { (filled written on).pub with
      queue := List.replicate n (.status 1 1) } }
    let reports (s : State) : List Report := firstReports (sample { action with capture := .every } 0 0) s
    RoomFor (reports (with_ 31 14)) (with_ 31 14) ∧ ¬RoomFor (reports (with_ 32 14)) (with_ 32 14)
      ∧ RoomFor (reports (with_ 32 16)) (with_ 32 16) ∧ RoomFor (firstReports (sample action 0 0) on) (with_ 32 14) := by
  unfold RoomFor
  decide +kernel

theorem test_hyp_SummaryAddedOrRelayed :
    SummaryInFront (summary action) [] (lookup action) .process (queued [.frame (summary action)] (withSlot 0 on))
      ∧ (summary action).isSummary = true ∧ ((withSlot 0 on).engine.slotEntries.get 0).entry = some ⟨true, 3⟩
      ∧ ((fAdd (held64 0) (held64 (summary action).summaryVolume)).kinds
          ||| (fAdd (held64 0) (held32 (summary action).summarySolids)).kinds) &&& on.inEffect.potency = 0
      ∧ f64IsNaN (fAdd (held64 0) (held64 (summary action).summaryVolume)).value = false
      ∧ (fAdd (held64 f64NaN) (held64 0)).kinds &&& on.inEffect.potency ≠ 0
      ∧ f64IsNaN (fAdd (held64 f64NaN) (held64 0)).value = true
      ∧ (fAdd (held64 f64NaN) (held64 0)).kinds &&& kOverflow = 0
      ∧ (summary action).hops.toNat < on.inEffect.hopLimit.toNat ∧ hasRoom on = true
      ∧ on.pub.heldDigests.any (·.byEngine) = false := by
  refine ⟨⟨⟨rfl, rfl⟩, rfl, rfl, rfl, .inl rfl⟩, ?_⟩
  decide +kernel

/-- A PROCESS AND RELAY summary: taken in and relayed, taken in and dropped at the hop limit, counted to a disabled slot and
relayed, and abandoned and relayed, with and without a place in the ring for its FAULT record. -/
theorem test_hyp_ProcessAndRelay :
    let item (target : Fin 16) (hops volume : Word) : FrameItem :=
      { summary { action with disposition := .processAndRelay, target := target } with
        received := [8, 3, 0x10000 ||| hops, 9, volume, 0, one32] }
    let run (target : Fin 16) (hops volume : Word) (s : State) :=
      (after .takeFrameItem (queued [.frame (item target hops volume)] (withSlot 7 s))).map (fun t =>
        [(t.engine.slots.get 7).count, t.engine.toDisabledPoint.toNat, t.balance.relayed.toNat,
          t.balance.relayDropped.toNat, t.pub.queue.length, t.pub.digestLost.toNat])
    let full : State := filled 16 on
    (item 7 0 0).isSummary = true ∧ (item 7 0x300 0).hops.toNat < on.inEffect.hopLimit.toNat
      ∧ on.inEffect.hopLimit.toNat ≤ (item 7 0x400 0).hops.toNat
      ∧ (summarySums (on.engine.slots.get 7) (item 7 0 0x7FF80000)).2.2 &&& on.inEffect.potency ≠ 0
      ∧ run 7 0x300 0x3FF00000 on = some [1, 0, 1, 0, 1, 0] ∧ run 7 0x400 0x3FF00000 on = some [1, 0, 0, 1, 0, 0]
      ∧ run 6 0x300 0x3FF00000 on = some [0, 1, 1, 0, 1, 0] ∧ run 8 0x400 0x3FF00000 on = some [0, 1, 0, 1, 0, 0]
      ∧ run 7 0x300 0x7FF80000 on = some [0, 0, 1, 0, 3, 0] ∧ run 7 0x400 0x7FF80000 full = some [0, 0, 0, 1, 1, 1]
      ∧ full.pub.digest.sizePending = false ∧ ¬full.pub.digest.occupied.length < full.inEffect.ringSize := by
  decide +kernel

/-- A sample 1 000 ms after its base, at the gap limit. -/
def based : State :=
  withPoint 0 { PointRecord.initial with baseFlag := true, velocity := f64One, velocityTime := 10 } on

/-- A sample with this action, time stamp and value in front, its point 0 with this entry and record. -/
def inFront (a : FirstAction) (time : Word) (v : F64) (e : PointEntry) (r : PointRecord) (s : State) : State :=
  queued [.frame (sample a time v)] { s with engine := { s.engine with
    pointEntries := upd on.engine.pointEntries 0 ⟨1, some e⟩
    points := upd on.engine.points 0 r } }

def sampled (role : Role) (time : Word) (v : F64) : FrameItem := sample { action with role := role } time v

def sampling (role : Role) (time : Word) (v : F64) (e : PointEntry) (r : PointRecord) (s : State) : State :=
  inFront { action with role := role } time v e r s

theorem test_hyp_SampleInFront (role : Role) (capture : CaptureMode) (time : Word) (v : F64) (e : PointEntry) (r : PointRecord)
    (s : State) (h : e.enable = true) (hs : s.engine.job = none) :
    let a := { action with role := role, capture := capture }
    RoomFor (firstReports (sample a time v) (inFront a time v e r s)) (inFront a time v e r s) →
      SampleInFront (sample a time v) [] (lookup a) e (inFront a time v e r s) := by
  intro a room
  refine ⟨⟨hs, rfl⟩, ?_, rfl, rfl, room, ?_, h⟩
  · show (sample action 0 0).isSummary = false
    decide
  · show ((upd on.engine.pointEntries 0 ⟨1, some e⟩).get 0).entry = some e
    rfl

/-- The captures of these lists find room, nothing is potent, and the second lookup's match, if any, accumulates. -/
theorem test_hyp_Accumulates (role : Role) (capture : CaptureMode) (time : Word) (v : F64) (e : PointEntry) (r : PointRecord)
    (s : State) (h : e.enable = true) (hs : s.engine.job = none) :
    let a := { action with role := role, capture := capture }
    let f := sample a time v
    let front := inFront a time v e r s
    RoomFor (firstReports f front) front → RoomFor (sampleReports f (lookup a) e v front) front →
      (firstSteps f role e r v).kinds 0 &&& s.inEffect.potency = 0 →
      (secondOf f (lookup a) e v front).all (·.action.accumulate) = true →
      Accumulates f [] (lookup a) e role v front := by
  intro a f front first both potent yes
  refine ⟨⟨test_hyp_SampleInFront role capture time v e r s h hs first, rfl, ?_⟩, rfl, both, ?_⟩
  · exact potent
  · intro x hx
    rw [hx] at yes
    exact yes

def half3 : F64 := 0x3FF8000000000000

/-- A velocity of 1.0 at time 10 and a density of 1.5 at time 1 010. -/
def paired : PointRecord :=
  { PointRecord.initial with
    baseFlag := true
    velocity := f64One
    velocityTime := 10
    density := half3
    densityTime := 1010
    densityPresent := true }

/-- With a fresh density: a concentration of 0.5, one of 1 that was clamped, and an exact solids increment. -/
theorem test_hyp_FreshDensity : isFresh pointEntry (sampled .velocity 1010 f64One) paired
    ∧ concentrationOf pointEntry half3 = (0x3FE0000000000000, false, 0)
    ∧ concentrationOf pointEntry 0x4008000000000000 = (f64One, true, 0)
    ∧ concentrationOf pointEntry 0 = (0, true, 0)
    ∧ volumeIncrement pointEntry f64One f64One 1000 = (f64One, 0)
    ∧ (fMul (held64 f64One) (held64 0x3FE0000000000000)).kinds = 0
    ∧ (after .takeFrameItem (sampling .velocity 1010 f64One pointEntry paired on)).map (fun t =>
        ((t.engine.points.get 0).volumeTotal, (t.engine.points.get 0).solidsTotal, (t.engine.points.get 0).sticky)) =
      some (f64One, f64One, 0) := by
  unfold isFresh
  decide +kernel

/-- Both points of a RUNNING run are fed. -/
theorem test_hyp_RunFed :
    let fed (run : State) := (after .takeFrameItem (sampling .velocity 1010 f64One pointEntry
      { paired with densityPresent := false } run)).map (fun t =>
        ((t.proving.testVolume, t.proving.testCount), (t.proving.referenceVolume, t.proving.referenceCount)))
    let reversed : State :=
      { on with proving := { (running .running on).proving with test := 1, reference := 0 } }
    fed (running .running on) = some ((f64One, 1), (0, 0)) ∧ fed reversed = some ((0, 0), (f64One, 1))
      ∧ ¬isFresh pointEntry (sampled .velocity 1010 f64One) { paired with densityPresent := false } := by
  unfold isFresh
  decide +kernel

def tolerant : State := { on with settings := ⟨1, some { settingsOn with potency := kOverflow }⟩ }

/-- At the same time stamp and past the gap limit; a NaN; the other roles with a number and with NaN. -/
theorem test_hyp_SampleClauses : paired.velocityTime - paired.velocityTime = 0
    ∧ pointEntry.gapLimit.toNat < ((1011 : Word) - paired.velocityTime).toNat ∧ f64IsNaN f64NaN = true
    ∧ (fMul (held32 pointEntry.area) (held64 f64NaN)).kinds &&& tolerant.inEffect.potency = 0
    ∧ (concentrationOf pointEntry half3).2.2 &&& on.inEffect.potency = 0 ∧ f64IsNaN half3 = false
    ∧ (concentrationOf pointEntry f64NaN).2.2 &&& tolerant.inEffect.potency = 0
    ∧ (0 : Kinds) &&& on.inEffect.potency = 0 := by decide +kernel

def anySecond (capture : CaptureMode) : ClassEntry :=
  .second ⟨0, 0, 0, 0, 0, 0, 0, 0, 0, 0, 0, 0, 0, 0⟩ ⟨.raise, 1, false, some 3, capture, true⟩

/-- The same entry with accumulate YES. -/
def acceptingSecond (capture : CaptureMode) : ClassEntry :=
  .second ⟨0, 0, 0, 0, 0, 0, 0, 0, 0, 0, 0, 0, 0, 0⟩ ⟨.raise, 1, true, some 3, capture, true⟩

/-- What an excluded sample leaves: conditions, excluded count, counter 3, MATCH, the armed flag, ring entries. -/
def excludedBy (capture : CaptureMode) (armed : Bool) : Option (List Nat) :=
  (after .takeFrameItem (sampling .velocity 1010 f64One pointEntry paired (withEntry 9 (anySecond capture) armed on))).map
    (fun t => [(t.engine.points.get 0).conditions.toNat, (t.engine.points.get 0).window.excluded,
      (t.cls.hits.get 3).toNat, (t.irq.getLsbD 2).toNat, (t.cls.armed.get 9).toNat, t.pub.digest.occupied.length])

/-- A SECOND entry that excludes every sample, with each capture mode; it raises condition 0, counter 3 and MATCH. -/
theorem test_hyp_SecondMatch : excludedBy .none false = some [1, 1, 1, 1, 0, 1]
    ∧ excludedBy .next false = some [1, 1, 1, 1, 0, 1] ∧ excludedBy .every false = some [1, 1, 1, 1, 0, 2]
    ∧ excludedBy .next true = some [1, 1, 1, 1, 0, 2] := by decide +kernel

/-- Velocities with no base, within the gap limit and with a fresh density, at a gap and NaN; a density and a pressure; with
SECOND entries loaded that match with accumulate YES or do not match; and captures of both lookups. -/
theorem test_hyp_SamplesAccumulate :
    let never : ClassEntry := .second ⟨0, 0, 0, 0, 0, 0, 0, 0, 0, 0, 0, 0, 0xF, 0xF⟩ ⟨.none, 0, false, none, .none, false⟩
    let stale : PointRecord := { paired with densityPresent := false, conditions := condStale }
    let holds (role : Role) (capture : CaptureMode) (time : Word) (v : F64) (r : PointRecord) (s : State) : Prop :=
      let a := { action with role := role, capture := capture }
      Accumulates (sample a time v) [] (lookup a) pointEntry role v (inFront a time v pointEntry r s)
    holds .velocity .none 1010 f64One PointRecord.initial on ∧ holds .velocity .none 1010 f64One paired on
      ∧ holds .velocity .none 1011 f64One stale on ∧ holds .velocity .none 1010 f64NaN stale tolerant
      ∧ holds .density .none 1010 half3 paired on ∧ holds .pressure .none 1010 f64NaN paired on
      ∧ holds .velocity .every 1010 f64One stale (withEntry 9 (acceptingSecond .every) false on)
      ∧ holds .velocity .none 1010 f64One stale (withEntry 9 never false on)
      ∧ (secondOf (sampled .velocity 1010 f64One) (lookup action) pointEntry f64One
          (sampling .velocity 1010 f64One pointEntry stale (withEntry 9 never false on))) = none := by
  refine ⟨test_hyp_Accumulates _ _ _ _ _ _ _ rfl rfl ?_ ?_ ?_ ?_, test_hyp_Accumulates _ _ _ _ _ _ _ rfl rfl ?_ ?_ ?_ ?_,
    test_hyp_Accumulates _ _ _ _ _ _ _ rfl rfl ?_ ?_ ?_ ?_, test_hyp_Accumulates _ _ _ _ _ _ _ rfl rfl ?_ ?_ ?_ ?_,
    test_hyp_Accumulates _ _ _ _ _ _ _ rfl rfl ?_ ?_ ?_ ?_, test_hyp_Accumulates _ _ _ _ _ _ _ rfl rfl ?_ ?_ ?_ ?_,
    test_hyp_Accumulates _ _ _ _ _ _ _ rfl rfl ?_ ?_ ?_ ?_, test_hyp_Accumulates _ _ _ _ _ _ _ rfl rfl ?_ ?_ ?_ ?_, ?_⟩
  all_goals try unfold RoomFor
  all_goals decide +kernel

/-- A match with accumulate YES and both captures: the sample is stored, STALE ends, condition 0 is raised, and the records of
both lookups and of the change are reserved in turn. -/
theorem test_match_accumulates :
    let a := { action with capture := .every }
    let front := inFront a 1010 f64One pointEntry { paired with conditions := condStale } (withEntry 9 (acceptingSecond .next) true on)
    let captures := sampleReports (sample a 1010 f64One) (lookup a) pointEntry f64One front
    let r := secondOf (sample a 1010 f64One) (lookup a) pointEntry f64One front
    captures.length = 2
      ∧ (after .takeFrameItem front).map (fun t => [(t.engine.points.get 0).conditions.toNat,
          (t.engine.points.get 0).sampleCount.toNat, (t.cls.hits.get 3).toNat, (t.cls.armed.get 9).toNat, t.irq.toNat,
          t.pub.digest.occupied.length]) = some [1, 1, 1, 0, 6, 3]
      ∧ (after .takeFrameItem front).any (fun t =>
          let o := sampleOrigins r (front.engine.points.get 0) (t.engine.points.get 0)
          o == ⟨some 9, true, false, false, false⟩ && t.pub.digest == (ringAfter 16 front.pub.digest (captures
            ++ pointReports 0 o 0 (releaseAt 0 front) (front.engine.points.get 0) (t.engine.points.get 0))).1) = true := by
  decide +kernel

/-- A capture of the second lookup that finds no room, one that the first lookup's capture leaves none, and their sample in
hand with nothing accumulated. -/
theorem test_hyp_CaptureWaits :
    let a := { action with capture := .every }
    let front (n : Nat) : State := inFront a 1010 f64One pointEntry paired { withEntry 9 (acceptingSecond .every) false on with
      pub := { on.pub with queue := List.replicate n (.status 1 1) } }
    let f := sample a 1010 f64One
    RoomFor (firstReports f (front 31)) (front 31) ∧ ¬RoomFor (sampleReports f (lookup a) pointEntry f64One (front 31)) (front 31)
      ∧ RoomFor (sampleReports f (lookup a) pointEntry f64One (front 30)) (front 30)
      ∧ (after .takeFrameItem (front 31)).map (fun t => [t.engine.job.isSome.toNat, (t.engine.points.get 0).sampleCount.toNat,
        t.pub.heldDigests.length]) = some [1, 0, 1] := by
  unfold RoomFor
  decide +kernel

/-- Lookups with entries that match and that do not: the lower of two entries, the upper when the lower does not match, and
none; and the key of a sample with a loaded checker and band. -/
theorem test_hyp_LookupsMade :
    let kindOnly (value : BitVec 4) : FirstKey := { anyKey with kindValue := value, kindMask := 0xF }
    let lower : State := withEntry 3 (.first (kindOnly 1) action) false (withEntry 63 nextEntry false on)
    let q : Quantities := ⟨.density, half3, some half3, some f64One, none, none⟩
    let loaded : State := { on with cls := { on.cls with
      checkers := upd on.cls.checkers 7 ⟨1, some ⟨.concentration, one32, one32⟩⟩
      band := ⟨1, some ⟨#v[0, one32, two32, two32, two32, two32, two32]⟩⟩ } }
    let seen (s : State) (q : Quantities) := let k := sampleKey s 0 (sample action 0 0) q
      (k.range.toNat, k.band, k.available)
    (firstLookup lower ⟨0, 0, 1⟩).map (·.index) = some 3 ∧ (firstLookup lower ⟨0, 0, 2⟩).map (·.index) = some 63
      ∧ firstLookup (withEntry 3 (.first (kindOnly 1) action) false on) ⟨7, 3, 2⟩ = none
      ∧ (secondLookup (withEntry 9 (anySecond .none) false on) (sampleKey on 0 (sample action 0 0) q)).isSome = true
      ∧ secondLookup on (sampleKey on 0 (sample action 0 0) q) = none
      ∧ seen loaded q = (0x80, 2, true) ∧ seen on q = (0, 0, true)
      ∧ seen loaded { q with concentration := some f64NaN } = (0, 0, false)
      ∧ seen loaded { q with concentration := none } = (0, 0, false) := by decide +kernel

def largest64 : F64 := 0x7FEFFFFFFFFFFFFF

/-- A potent kind first at FLOW, at CONCENTRATION, at SOLIDS RATE and at INTEGRATION. -/
theorem test_hyp_PotentSteps :
    let wide : PointEntry := { pointEntry with area := two32 }
    let narrowSpan : PointEntry := { pointEntry with solids := 0x3F800001 }
    let dense : PointRecord := { paired with density := 0x4008000000000000 }
    let fast : PointRecord := { paired with velocity := largest64, densityPresent := false }
    let step (role : Role) (v : F64) (e : PointEntry) (r : PointRecord) :=
      (after .takeFrameItem (sampling role 1010 v e r on)).map (fun t => t.arith.fault.map (·.step))
    step .velocity largest64 wide fast = some (some .flow)
      ∧ step .density largest64 narrowSpan fast = some (some .concentration)
      ∧ step .velocity largest64 pointEntry dense = some (some .solidsRate)
      ∧ step .velocity largest64 pointEntry fast = some (some .integration) := by decide +kernel

/-- The increment of that sample is 1.0, with nothing potent and no NaN. -/
theorem test_increment : (after .takeFrameItem (queued [.frame (sample action 1010 f64One)] based)).map (fun t =>
    ((t.engine.points.get 0).volumeTotal, (t.engine.points.get 0).sticky)) = some (f64One, 0) := by decide +kernel

theorem test_hyp_PotentSampleAbandoned :
    let f : FrameItem := { sample action 0 0 with carried := kInvalid }
    SampleInFront f [] (lookup action) pointEntry (queued [.frame f] twoPoints)
      ∧ f.carried &&& twoPoints.inEffect.potency ≠ 0 := by
  refine ⟨⟨⟨rfl, rfl⟩, ?_, rfl, rfl, .inl rfl, ?_, ?_⟩, ?_⟩ <;> decide +kernel

/-- A potent INTEGRATION with a fresh density, at a point that a RUNNING run feeds, behind a match that raised condition 0;
the solids alone are potent, and then the proving volume alone. -/
theorem test_hyp_PotentIntegration :
    let strict : GlobalSettings := { settingsOn with potency := kInvalid ||| kOverflow ||| kInexact }
    let base : State := withEntry 9 (acceptingSecond .none) false
      { running .running on with settings := ⟨1, some strict⟩ }
    let heavy : PointRecord := { paired with solidsTotal := largest64 }
    let fed : State := { base with proving := { base.proving with testVolume := largest64 } }
    let kinds (r : PointRecord) (s : State) : List Kinds :=
      let x (s : State) := sumsOf (sampled .velocity 1010 f64One) pointEntry f64One r s.proving 0
      [(x s).kinds, (x { s with proving := { s.proving with run := .armed } }).kinds]
    let left (r : PointRecord) (s : State) := (after .takeFrameItem (sampling .velocity 1010 f64One pointEntry r s)).map (fun t =>
      (t.arith.fault.map (·.step), (t.engine.points.get 0).conditions, t.proving == s.proving))
    kinds heavy base = [kInexact, kInexact] ∧ kinds paired fed = [kInexact, 0] ∧ kinds paired base = [0, 0]
      ∧ left heavy base = some (some .integration, condArith ||| 1, true)
      ∧ left paired fed = some (some .integration, condArith ||| 1, true)
      ∧ (left paired base).map (·.1) = some none := by decide +kernel

/-- The arithmetic fault record EMPTY, HELD, and HELD at the end of its further count; with a place in the ring and without. -/
theorem test_hyp_ArithFaultOffered :
    let f : FrameItem := { sample action 0 0 with carried := kInvalid }
    let held (further : BitVec 8) (s : State) : State :=
      { s with arith := { s.arith with fault := some ⟨0, .velocity, 0, 0, 7, .flow, 1, further⟩ } }
    let run (s : State) := (after .takeFrameItem (queued [.frame f] s)).map (fun t =>
      [((t.arith.fault.map ArithFault.further).getD 0).toNat, t.irq.toNat, t.pub.digest.occupied.length, t.pub.digestLost.toNat,
        t.pub.queue.length])
    twoPoints.arith.fault = none ∧ twoPoints.inEffect.causeEnable.getLsbD 0 = true
      ∧ twoPoints.pub.digest.occupied.length < twoPoints.inEffect.ringSize
      ∧ run twoPoints = some [0, 3, 2, 0, 4] ∧ run (filled 16 twoPoints) = some [0, 11, 16, 2, 2]
      ∧ run (held 254 twoPoints) = some [255, 2, 1, 0, 3] ∧ run (held 255 twoPoints) = some [255, 2, 1, 0, 2] := by
  decide +kernel

theorem test_hyp_Markers (run : ProvingRun) : (queued [.marker] (running run twoPoints)).engine.job = none
    ∧ (queued [.marker] (running run twoPoints)).engine.workQueue = .marker :: []
    ∧ (queued [.marker] (running run twoPoints)).proving.run = run
    ∧ ((queued [.marker] (running run twoPoints)).engine.pointEntries.get 0).entry = some pointEntry
    ∧ pointEntry.enable = true ∧ twoPoints.pointEnabled 15 = false := by
  refine ⟨rfl, rfl, rfl, ?_, ?_, ?_⟩
  · show (twoPoints.engine.pointEntries.get 0).entry = some pointEntry
    decide +kernel
  · decide
  · decide +kernel

/-- A RUNNING run of one window whose points are stale is ABORTED; whose points are not is COMPLETE. -/
theorem test_marker_ends_run : (after .takeWindowCloseMarker (queued [.marker] (running .running twoPoints))).map (fun t =>
      (t.engine.job, t.proving.run, t.proving.abort)) = some (none, .aborted, .stale)
    ∧ (after .takeWindowCloseMarker (queued [.marker] (withPoint 1
        { PointRecord.initial with window := { PointWindow.zero with velocitySeen := true } }
        (withPoint 0 { PointRecord.initial with window := { PointWindow.zero with velocitySeen := true } }
          (running .running twoPoints))))).map (fun t => (t.engine.job, t.proving.run, t.proving.factor, t.proving.invalid)) =
      some (none, .complete, f64NaN, true) := by
  decide +kernel

/-- A close with an exporting inflow point and an enabled segment: of lag 0 it compares at once and is WATCHING, of lag
1 it holds the amount. -/
theorem test_marker_segment_and_summary :
    let seen : Loaded PointEntry := ⟨1, some { pointEntry with exportFlag := true }⟩
    let closing (lag : Nat) : State :=
      let s := withSegment 7 Segment.initial (withPoint 1
        { PointRecord.initial with window := { PointWindow.zero with velocitySeen := true } }
        (withPoint 0 { PointRecord.initial with window := { PointWindow.zero with volume := f64One, velocitySeen := true } } on))
      queued [.marker] { s with
        engine := { s.engine with pointEntries := upd s.engine.pointEntries 0 seen }
        balance := { s.balance with entries := upd s.balance.entries 7 ⟨1, some { segmentEntry with lag := lag }⟩ } }
    (after .takeWindowCloseMarker (closing 0)).map (fun t => (t.engine.job, (t.balance.segments.get 7).state,
        (t.balance.segments.get 7).lag.length, (t.pub.queue.filter isOutbound).length)) = some (none, .watching, 0, 1)
      ∧ (after .takeWindowCloseMarker (closing 1)).map (fun t => (t.engine.job, (t.balance.segments.get 7).state,
        (t.balance.segments.get 7).lag.length, t.pub.outboundIndex)) = some (none, .filling, 1, 1) := by decide +kernel

/-- For the statements about commands: every command in front. -/
theorem test_hyp_CommandInFront (kind target tag : Nat) (args : List Word) (s : State) (h : s.engine.job = none) :
    CommandInFront ⟨2, word kind target tag, args⟩ [] (commanded kind target tag args s) := ⟨h, rfl⟩

theorem test_hyp_CommandsRefused : bits (word 0 0 0) 0 4 = 0 ∧ bits (word 15 0 0) 0 4 = 15 ∧ 10 ≤ bits (word 10 0 0) 0 4
    ∧ State.reset.inEffect.enable = false ∧ bits (word 1 16 0) 8 8 = 16 ∧ bits (word 9 8 0) 8 8 = 8
    ∧ bits (word 7 64 0) 8 8 = 64 ∧ provingInProgress (running .armed twoPoints) = true
    ∧ (word 2 8 0 ||| 16).getLsbD 4 = true ∧ (word 2 15 0).getLsbD 4 = false
    ∧ (word 4 0 8).extractLsb' 16 8 ≠ (running .armed twoPoints).proving.owner
    ∧ armable (on.cls.entries.get 63).entry = false := by decide +kernel

/-- The checks of START PROVING, each decisive once, with windows at both ends of their range. -/
theorem test_hyp_StartProvingChecks : startRefusal (running .running twoPoints) 0 1 1 = some .busy
    ∧ startRefusal twoPoints 16 1 1 = some .badTarget ∧ startRefusal twoPoints 1 1 1 = some .badTarget
    ∧ startRefusal twoPoints 0 1 0 = some .badTarget ∧ startRefusal twoPoints 0 1 256 = some .badTarget
    ∧ startRefusal twoPoints 0 2 1 = some .badTarget
    ∧ startRefusal (claiming writeTxn (.held (.commit (.point 1)) [] 0) twoPoints) 0 1 1 = some .busy
    ∧ startRefusal twoPoints 0 1 1 = none ∧ startRefusal twoPoints 0 1 255 = none := by decide +kernel

theorem test_hyp_CommandsAct : twoPoints.inEffect.enable = true ∧ bits (word 1 15 0) 8 8 = (15 : Fin 16).val
    ∧ provingInProgress twoPoints = false ∧ provingInProgress (running .armed twoPoints) = true
    ∧ (2 : Fin 16) ≠ (running .armed twoPoints).proving.test ∧ (2 : Fin 16) ≠ (running .armed twoPoints).proving.reference
    ∧ (word 4 0 9).extractLsb' 16 8 = (running .armed twoPoints).proving.owner
    ∧ hasRoom on = true ∧ armable ((withEntry 63 nextEntry false on).cls.entries.get 63).entry = true
    ∧ segmentEnabled ((withSegment 7 Segment.initial on).balance.entries.get 7).entry = true := by decide +kernel

theorem test_hyp_ConditionModeApplied : (0x3F#8) &&& ~~~lookupConditions = 0 ∧ (0#8) &&& ~~~lookupConditions = 0 := by
  decide

theorem test_hyp_TargetOfFrame : (lookup action).action.disposition = .process
    ∧ (lookup { action with disposition := .relay }).action.disposition = .relay
    ∧ (lookup { action with target := 7 }).action.target.val = (7 : Fin 8).val
    ∧ 8 ≤ (lookup { action with target := 8 }).action.target.val := by decide

/-! ### Items in hand, accesses and moved windows -/

def handed (j : Job) (s : State) : State := { s with engine := { s.engine with job := some j } }

/-- A bus reset with an item in hand: what the queue holds of `it`, whether the item has ended, CONDITION, record 0's mark. -/
def resetInHand (it : OwnItem) (j : Job) (reload : Option Reload) : Option (Bool × Bool × Bool × PendingMark) :=
  let s := handed j resetting
  (after (.busReset false) { s with engine := { s.engine with reload := reload } }).map (fun t =>
    (t.pub.queue.contains it, t.engine.job.isNone, t.irq.getLsbD 1, (t.pub.records.get 0).mark))

/-- A reload, a waiting STATUS and OUTBOUND item, a report that waits with its DIGEST item, and one with nothing behind it. -/
theorem test_hyp_BusResetInHand :
    let relay : Job := { answering with acts := [.await, .countRelayed], offer := some (.outbound [1]) }
    let report : Job := { answering with acts := [.await, .cause .condition, .publish 0], offer := none }
    resetInHand (.status 0 (statusWord 5 .reset 0 0)) queueingJob (some ⟨5, 0, 0⟩) = some (true, true, false, .none)
      ∧ resetInHand (.status 2 7) answering none = some (true, true, false, .none)
      ∧ resetInHand (.outbound 0 [1]) relay none = some (true, true, false, .none)
      ∧ resetInHand (.status 2 (statusWord (word 1 0 0) .reset 0 0)) report none = some (true, true, true, .queued)
      ∧ resetInHand (.status 2 7) { answering with offer := none } none = some (false, true, false, .none) := by
  decide +kernel

/-- The second access of a fetch, its re-read, and the last pairs of a 64-word and the first of an 8-word publication. -/
theorem test_hyp_PortAccesses :
    phaseAccess on ⟨writeTxn, .fetch (.command 7) ⟨6, [1, 2], 0, false⟩ []⟩ = (.fetch, ⟨.pairRead, .word, 0x14E8, 0, 0⟩)
      ∧ phaseAccess on ⟨writeTxn, .fetch (.commit (.slot 7)) ⟨3, [1, 2], 0, false⟩ []⟩ =
        (.fetch, ⟨.read, .word, 0xA78, 0, 0⟩)
      ∧ writeTxn.kind = .write ∧ (recordContent on 24).length / 2 = 32 ∧ (recordContent on 27).length / 2 = 4
      ∧ (ownAccess on (.publish 24 (recordContent on 24)) ⟨31, Fetch.start 0⟩).addr = 0x1EF8
      ∧ (ownAccess on (.publish 27 (recordContent on 27)) ⟨0, Fetch.start 0⟩).addr = 0x1F60
      ∧ ownAccess on (.fetch (.segment 7)) ⟨0, ⟨16, [1], 2, true⟩⟩ = ⟨.read, .word, 0x9C4, 0, 0⟩ := by decide +kernel

/-- Entries a run of points 0 and 1 protects by the loaded copy or by the new content, and entries it does not. -/
theorem test_hyp_ProtectedEntries :
    let forPoint (target : Fin 16) : State := withEntry 63 (.first anyKey { action with target := target }) false on
    let protects (s : State) (words : List (Nat × Word)) : Bool := protectedUnder s 0 1 (.classification 63) (entryWords words)
    protects (forPoint 1) [] = true ∧ protects (forPoint 2) [] = false
      ∧ protects on [(2, 0x10), (7, 0x100)] = true ∧ protects on [(2, 0x20), (7, 0x100)] = false
      ∧ protects on [(0, 0x80000), (1, 0xF0000), (2, 0x10), (7, 0x100)] = false
      ∧ protects on [(0, 0xF0002), (7, 0x200)] = false ∧ protects on [(0, 0xE0001), (7, 0x200)] = true
      ∧ protectedUnder on 0 1 (.point 1) [] = true ∧ protectedUnder on 0 1 (.point 2) [] = false
      ∧ protectedUnder on 0 1 (.segment 0) [] = false
      ∧ changesRingSize { on with settings := ⟨1, some { settingsOn with ringSize := 32 }⟩ } .globalSettings [] = true := by
  decide +kernel

def movedWords : List Word := entryWords [(0, 0x10000), (1, 0x110064), (3, 0x20000), (4, 0x100), (15, 0x80000002)]

/-- An open frame of point 0 and one of slot 0 in window 0, both records complete, and point 1. -/
def moving : State :=
  let seen : PointRecord := { PointRecord.initial with window := ⟨0, 0, 0, 0, true, true, false⟩ }
  let base := withFrame 7 openSummary (withFrame 1 open4 (withPoint 1 seen (withPoint 0 seen (withSlot 0 (filled 16 on)))))
  onPort .heldWrite writeTxn (.held (.commit .globalSettings) movedWords 0)
    { base with engine := { base.engine with slots := upd base.engine.slots 0 ⟨0, 0, 1, true, false, 0, 0, false⟩ } }

def heldWords : State :=
  claiming writeTxn (.pass writeAccess [⟨0x1000C, false, false, .closes true⟩, ⟨0x20000, false, false, .nothing⟩]) on

/-- Frames in a window that the settings move are torn and their targets marked; words held there lose their effect; the
ring takes its new size when processing goes off. -/
theorem test_hyp_MovedWindows :
    (after (.heldWriteResponse (done 0)) moving).map (fun t => [t.asm.torn.toNat, t.asm.records.toList.countP Option.isSome,
        (t.engine.points.get 0).window.volumeComplete.toNat, (t.engine.points.get 1).window.volumeComplete.toNat,
        (t.engine.slots.get 0).allComplete.toNat, t.inEffect.ringSize, t.pub.digest.occupied.length]) =
      some [2, 0, 0, 1, 0, 32, 0]
      ∧ (loadEntry .globalSettings movedWords heldWords).path.current =
        some ⟨writeTxn, .pass writeAccess [⟨0x1000C, false, true, .closes true⟩, ⟨0x20000, false, false, .nothing⟩]⟩ := by
  decide +kernel

/-- The reads of a FETCH item: the first and second of a pair, one re-read alone, a repeat; and the last word again alone. -/
theorem test_hyp_FetchItemReads :
    let item (f : Fetch) : State := { reloading with pub := { reloading.pub with begun := some ⟨0, f⟩ } }
    let run (f : Fetch) (first second : Response) := (after (.ownAccessResponse first second) (item f)).map (fun t =>
      (t.pub.begun.map Progress.fetch, t.engine.reload))
    let goesOn (f : Fetch) : Option (Option Fetch × Option Reload) := some (some f, some ⟨136, 0, 0⟩)
    run ⟨4, [], 3, false⟩ (done 1) (done 2) = goesOn ⟨4, [1, 2], 0, false⟩
      ∧ run ⟨4, [], 3, false⟩ (done 1) ⟨.retry, 0⟩ = goesOn ⟨4, [1], 1, true⟩
      ∧ run ⟨4, [1], 1, true⟩ (done 2) (done 0) = goesOn ⟨4, [1, 2], 0, false⟩
      ∧ run ⟨4, [1, 2], 6, false⟩ ⟨.retry, 0⟩ ⟨.fault, 0⟩ = goesOn ⟨4, [1, 2], 7, false⟩
      ∧ run ⟨4, [1, 2, 0], 1, true⟩ (done 0x80000001) (done 0) = some (none, some ⟨137, 0, 0⟩)
      ∧ run ⟨4, [1, 2, 0], 7, true⟩ ⟨.retry, 0⟩ (done 0) = some (none, some ⟨137, 0, 1⟩) := by decide +kernel

/-- The last FETCH item fails: the two reports of the capture join, or only one finds room, and the STATUS item joins. -/
theorem test_hyp_LastFetchFails :
    let behind (n : Nat) : State := { reloading with
      engine := { reloading.engine with reload := some ⟨137, 2, 3⟩ }
      pub := { reloading.pub with queue := .fetch (.slot 7) :: List.replicate n (.status 1 1) } }
    let run (n : Nat) := (after (.ownAccessResponse ⟨.fault, 0⟩ ⟨.fault, 0⟩) (behind n)).map (fun t =>
      (t.engine.reload, t.engine.job.isNone, t.pub.queue.length))
    run 0 = some (none, true, 3) ∧ run 29 = some (none, true, 32) ∧ run 30 = some (none, true, 32) := by
  decide +kernel

def relayed : Job :=
  { answering with
    frame := some ⟨summary action, 0, none, none, none⟩
    acts := [.await, .countRelayed]
    stages := [.frameEffects, .report]
    offer := some (.outbound [1]) }

/-- This item in hand, 31 items queued and a reload in progress. -/
def offering (j : Job) : State :=
  let s := handed j on
  { s with
    engine := { s.engine with reload := some ⟨5, 0, 0⟩ }
    pub := { s.pub with queue := List.replicate 31 (.status 1 1), outboundIndex := 31 } }

def fetchesOn : Job := { queueingJob with acts := [.await, .offer (.fetch .band), .await] }

/-- A place given to a waiting OUTBOUND item, which is counted and ends its frame, and to a FETCH item. -/
theorem test_hyp_OffersGivenPlace :
    let run (j : Job) := (after .queuePlaceGiven (offering j)).map (fun t =>
      (t.pub.queue.getLast?, [t.pub.outboundIndex.toNat, t.balance.relayed.toNat], t.engine.job))
    run relayed = some (some (.outbound 31 [1]), [0, 1], none)
      ∧ run queueingJob = some (some (.fetch (.slot 7)), [31, 0], some { queueingJob with acts := [], offer := none })
      ∧ run fetchesOn =
        some (some (.fetch (.slot 7)), [31, 0], some { fetchesOn with acts := [.await], offer := some (.fetch .band) }) := by
  decide +kernel

/-! ### Reported records -/

/-- These records, `count` of them, were reserved and their DIGEST items queued. -/
def wereReported (count : Nat) (reports : State → List Report) (i : Instr) (s : State) : Bool :=
  (after i s).any (fun t =>
    let r := ringAfter s.inEffect.ringSize s.pub.digest (reports t)
    (reports t).length == count && t.engine.job.isNone && t.pub.digest == r.1
      && t.pub.digestLost == s.pub.digestLost + BitVec.ofNat 32 r.2.2 && r.2.1.all (t.pub.queue.contains ·))

/-- The CONDITION record of point 0 and of segment 7, as the statements give them. -/
def ofPoint (o : Origins) (s t : State) : List Report :=
  pointReports 0 o s.engine.windowNumber (releaseAt s.engine.windowNumber s) (s.engine.points.get 0) (t.engine.points.get 0)

def ofSegment (o : Origins) (s t : State) : List Report :=
  segmentReports 7 o s.engine.windowNumber (releaseAt s.engine.windowNumber s) (s.balance.segments.get 7)
    (t.balance.segments.get 7)

def ofRun (s t : State) : List Report :=
  provingReports s.engine.windowNumber (releaseAt s.engine.windowNumber s) s.proving t.proving

/-- A sample that ends STALE; one whose second match raises a condition, with its capture; one that raises ARITH, with the
FAULT record; with a place in the ring for each and with none. -/
theorem test_hyp_SamplesReported :
    let silent := sampling .velocity 1010 f64One pointEntry { paired with conditions := condStale } on
    let second := sampling .velocity 1010 f64One pointEntry paired (withEntry 9 (anySecond .every) false on)
    let potent := queued [.frame { sample action 0 0 with carried := kInvalid }] twoPoints
    let captured : Report := ⟨.capture, secondCaptureBody (sampled .velocity 1010 f64One)
      (sampleKey second 0 (sampled .velocity 1010 f64One)
        (deriveSample .velocity pointEntry paired f64One 1010).quantities) 9 1 .every, releaseAt 0 second⟩
    let fault : Report := ⟨.fault, arithFaultBody 0 .velocity { sample action 0 0 with carried := kInvalid } .conversion
      kInvalid, releaseAt 0 potent⟩
    let behind (first : List Report) (s : State) := first ++ ofPoint { Origins.none with engine := true } potent s
    wereReported 1 (ofPoint { Origins.none with engine := true } silent) .takeFrameItem silent = true
      ∧ wereReported 2 (fun t => captured :: ofPoint { Origins.none with lookup := some 9 } second t) .takeFrameItem second =
        true
      ∧ wereReported 2 (behind [fault]) .takeFrameItem potent = true
      ∧ wereReported 2 (behind [fault]) .takeFrameItem (filled 15 potent) = true
      ∧ wereReported 2 (behind [fault]) .takeFrameItem (filled 16 potent) = true := by decide +kernel

/-- The marker that makes both points stale, aborts their run and finds a gap in a segment. -/
theorem test_hyp_MarkerReported :
    let s := queued [.marker] (withSegment 7 { Segment.initial with state := .watching, lag := [⟨0, f64One, false⟩] }
      (running .running twoPoints))
    wereReported 4 (markerReports s) .takeWindowCloseMarker s = true
      ∧ (after .takeWindowCloseMarker s).map (fun t => ((t.engine.points.get 0).conditions, (t.engine.points.get 1).conditions,
        (t.balance.segments.get 7).conditions, t.proving.run)) = some (condStale, condStale, segGap, .aborted) := by
  decide +kernel

/-- The commands that change conditions or the run, and a commit that empties a segment with conditions. -/
theorem test_hyp_CommandsReported :
    let held : State := commanded 2 0 0 [0x41]
      (withPoint 0 { PointRecord.initial with conditions := condStale ||| condArith, hold := true } on)
    let losing (s : State) : State := withSegment 7 { Segment.initial with state := .watching, conditions := segLoss, loss := 1 } s
    let ackSegment : State := queued [.command ⟨2, word 2 7 0 ||| 16, [1]⟩] (losing on)
    let reset : State := commanded 9 7 0 [] (losing on)
    let start : State := commanded 3 0 9 [1, 4] twoPoints
    let stop : State := commanded 4 0 9 [] (running .running twoPoints)
    let words := entryWords [(0, 0x10), (1, 0x10100), (2, one32), (15, 0x80000002)]
    let load : State := onPort .heldWrite writeTxn (.held (.commit (.segment 7)) words 0) (losing on)
    let command := { Origins.none with command := true }
    wereReported 1 (ofPoint command held) .ackConditions held = true
      ∧ wereReported 1 (ofSegment command ackSegment) .ackConditions ackSegment = true
      ∧ wereReported 1 (ofSegment command reset) .resetSegment reset = true
      ∧ wereReported 1 (ofRun start) .startProving start = true ∧ wereReported 1 (ofRun stop) .endProving stop = true
      ∧ wereReported 1 (ofSegment { Origins.none with commit := true } load) (.heldWriteResponse (done 0)) load = true := by
  decide +kernel

/-! ### Places for what a command and a marker leave behind -/

/-- This state with `n` items in the own-access queue. -/
def crowded (n : Nat) (s : State) : State := { s with pub := { s.pub with queue := List.replicate n (.status 1 1) } }

/-- A DIGEST item held back that is not the engine's. -/
def holdingBack (s : State) : State := { s with pub := { s.pub with heldDigests := [⟨3, [], false⟩] } }

/-- After this command, with these many items queued: whether nothing is in hand, and whether the status stands last. -/
def leavesStatus (i : Instr) (w : Word) (s : State) (n : Nat) : Option (Bool × Bool) :=
  (after i (crowded n s)).map (fun t => (t.engine.job.isNone, t.pub.queue.getLast? == some (.status 2 w)))

def heldPoint : State := withPoint 0 { PointRecord.initial with conditions := condStale ||| condArith, hold := true } on
def lossy (s : State) : State :=
  withSegment 7 { Segment.initial with state := .watching, conditions := segLoss, loss := 1 } s

/-- With `n` items queued the status of this command stands last and nothing is in hand; with one more neither holds. -/
def endsAt (i : Instr) (kind target tag : Nat) (args : List Word) (s : State) (n : Nat) : Bool :=
  let run := leavesStatus i (statusWord (word kind target tag) .none 0 0) (commanded kind target tag args s)
  run n == some (true, true) && run (n + 1) == some (false, false)

/-- Each number of publications and kept records, at the last length with places for all and one past it. -/
theorem test_hyp_StatusFollows : endsAt .resyncDigest 6 0 0 [] on 31 = true ∧ endsAt .clearTotals 1 0 0 [] twoPoints 30 = true
    ∧ endsAt .clearFaults 8 0 0 [] on 29 = true ∧ endsAt .ackConditions 2 0 0 [0x41] heldPoint 29 = true
    ∧ endsAt .ackConditions 2 0 0 [0x41] (filled 16 heldPoint) 30 = true
    ∧ endsAt .ackConditions 2 0 0 [0x41] (holdingBack (filled 16 heldPoint)) 30 = true
    ∧ endsAt .startProving 3 0 9 [1, 4] twoPoints 29 = true
    ∧ endsAt .endProving 4 0 9 [] (filled 16 (running .running twoPoints)) 30 = true
    ∧ endsAt .resetSegment 9 7 0 [] (lossy on) 29 = true
    ∧ leavesStatus .unknownCommand (statusWord (word 10 0 0) .unknownCommand 0 0) (commanded 10 0 0 [] on) 31 =
      some (true, true) := by decide +kernel

theorem test_hyp_PlacesFor : PlacesFor [] 0 (crowded 31 on) ∧ ¬PlacesFor [] 0 (crowded 32 on)
    ∧ PlacesFor [⟨.proving, [], 0⟩] 1 (crowded 29 on) ∧ ¬PlacesFor [⟨.proving, [], 0⟩] 1 (crowded 30 on)
    ∧ PlacesFor [⟨.proving, [], 0⟩] 1 (holdingBack (crowded 30 (filled 16 on)))
    ∧ ¬PlacesFor [⟨.proving, [], 0⟩] 1 (holdingBack on) := by
  unfold PlacesFor
  decide +kernel

/-- With the window's velocity seen nothing falls stale. -/
def seenPoints (s : State) : State :=
  let seen := { PointRecord.initial with window := { PointWindow.zero with velocitySeen := true } }
  withPoint 1 seen (withPoint 0 seen s)

/-- Markers with no work of their own, with a segment and a run, and with two points that fall stale: at the last queue length
with places for all, where the engine ends, and one past it. -/
theorem test_hyp_MarkerPlaces :
    let marker (s : State) (n : Nat) : State := crowded n (queued [.marker] s)
    let busy : State := withSegment 7 Segment.initial (running .running (seenPoints on))
    let ends (s : State) := (after .takeWindowCloseMarker s).map (·.engine.job.isNone)
    (MarkerPlaces (marker on 32) ∧ ends (marker on 32) = some true)
      ∧ (MarkerPlaces (marker busy 28) ∧ ¬MarkerPlaces (marker busy 29) ∧ ends (marker busy 28) = some true)
      ∧ (MarkerPlaces (marker twoPoints 5) ∧ ¬MarkerPlaces (marker twoPoints 6) ∧ ends (marker twoPoints 5) = some true)
      ∧ ¬MarkerPlaces (holdingBack (marker on 0)) ∧ ends (marker twoPoints 32) = some false := by
  unfold MarkerPlaces
  decide +kernel

/-- The 138 positions, and what a RELOAD IMAGE leaves of them to its job, with 0, 31 and 32 items queued, and with a DIGEST item
of the engine's held back, where one joins and the engine then waits. -/
theorem test_hyp_ReloadOrder :
    let split (s : State) (joined : Nat) (offered : Bool) : Bool := (after .reloadImage (commanded 5 0 0 [] s)).any (fun t =>
      let rest := fetchOrder.drop joined
      let left := if offered then rest.drop 1 else rest
      t.pub.queue == s.pub.queue ++ (fetchOrder.take joined).map .fetch && t.engine.job.any (fun j =>
        j.offer == (if offered then rest.head? else none).map .fetch
          && j.acts == .await :: left.flatMap (fun pos => [.offer (.fetch pos), .await])
          && j.stages == [.reloadEnd 2 (word 5 0 0)]))
    fetchOrder.length = 138 ∧ split on 32 true = true ∧ split (crowded 31 on) 1 true = true
      ∧ split (crowded 32 on) 0 true = true
      ∧ split { on with pub := { on.pub with heldDigests := [⟨3, [], true⟩] } } 1 false = true := by decide +kernel

/-! ### Arithmetic -/

theorem test_hyp_Zeros : isZero 0 ∧ isZero (zero64 true) ∧ ¬isZero f64One ∧ ¬isZero 1 ∧ isInfinite (infinity64 true)
    ∧ ¬isInfinite f64NaN := by
  refine ⟨⟨false, rfl⟩, ⟨true, rfl⟩, ?_, ?_, ⟨true, rfl⟩, ?_⟩ <;> rintro ⟨b, h⟩ <;> revert h <;> revert b <;> decide

theorem test_hyp_Formats : isFinite64 0 ∧ isFinite64 1 ∧ isFinite64 largest64 ∧ ¬isFinite64 (infinity64 false) ∧ isNaN64 f64NaN
    ∧ ¬isNaN64 (infinity64 true) ∧ isFinite32 1 ∧ isNaN32 0xFFC00001 ∧ ¬isFinite32 0x7F800000 := by
  unfold isFinite64 isNaN64 isFinite32 isNaN32
  decide

/-- The number of an encoding from its sign, exponent and significand. -/
theorem value64_eq (x : F64) (negative : Bool) (e m : Nat) (hs : x.getLsbD 63 = negative)
    (he : (x.extractLsb' 52 11).toNat = e) (hm : (x.extractLsb' 0 52).toNat + (if e = 0 then 0 else 2 ^ 52) = m) :
    value64 x = (if negative then -1 else 1) * ((m : ℚ) * 2 ^ (e - 1) / 2 ^ 1074) := by
  simp only [value64, hs, he, hm]

set_option exponentiation.threshold 2100 in
theorem value_one : value64 f64One = 1 := by
  rw [value64_eq f64One false 1023 (2 ^ 52) (by decide) (by decide) (by decide)]
  norm_num

theorem value_least : value64 1 = 1 / 2 ^ 1074 := by
  rw [value64_eq 1 false 0 1 (by decide) (by decide) (by decide)]
  norm_num

set_option exponentiation.threshold 2100 in
theorem value_largest : value64 largest64 = 2 ^ 1024 - 2 ^ 971 := by
  rw [value64_eq largest64 false 2046 (2 ^ 53 - 1) (by decide) (by decide) (by decide)]
  norm_num

set_option exponentiation.threshold 2100 in
/-- Nonzero and zero sums and differences, and exact results on either side of the bounds of rounding. -/
theorem test_hyp_OperationsRounded : value64 f64One + value64 f64One ≠ 0 ∧ value64 f64One - value64 f64One = 0
    ∧ 2 ^ 1024 - 2 ^ 970 ≤ value64 largest64 + value64 largest64 ∧ 1 / 2 ^ 1022 ≤ value64 f64One
    ∧ value64 1 * value64 1 < 1 / 2 ^ 1022 ∧ 0 < value64 1 := by
  rw [value_one, value_least, value_largest]
  norm_num

/-- Each kind of operand once: sums, products, quotients and a root, with and without a subnormal operand. -/
theorem test_operations :
    let one : Operand := held64 f64One
    let least : Operand := held64 1
    let largest : Operand := held64 largest64
    let infinite : Operand := held64 (infinity64 false)
    let zero : Operand := held64 (zero64 true)
    [fAdd one least, fSub one one, fAdd zero zero, fAdd largest largest, fSub infinite infinite, fMul least least,
        fMul infinite zero, fDiv one (held64 0x4008000000000000), fDiv zero one, fSqrt (held64 0x4000000000000000), fSqrt zero,
        fSqrt (held64 0xBFF0000000000000)] =
      [⟨f64One, kDenormal ||| kInexact⟩, ⟨0, 0⟩, ⟨zero64 true, 0⟩, ⟨infinity64 false, kOverflow ||| kInexact⟩, invalidWith 0,
        ⟨0, kDenormal ||| kUnderflow ||| kInexact⟩, invalidWith 0, ⟨0x3FD5555555555555, kInexact⟩, ⟨zero64 true, 0⟩,
        ⟨0x3FF6A09E667F3BCD, kInexact⟩, ⟨zero64 true, 0⟩, invalidWith 0] := by decide +kernel

/-- Integers at both ends, and numbers that narrow exactly, at a tie, below the least binary32 value and beyond the largest. -/
theorem test_formats : f64OfInt (-2 ^ 31) = 0xC1E0000000000000 ∧ f64OfInt (2 ^ 32 - 1) = 0x41EFFFFFFFE00000 ∧ widen 1 = 0x36A0000000000000
    ∧ [f64One, 0x3FF0000010000000, 0x3FF0000030000000, 1, largest64, f64NaN].map narrow =
      [one32, one32, 0x3F800002, 0, 0x7F800000, 0x7FC00000]
    ∧ fLe (zero64 true) 0 = true ∧ fLt largest64 (infinity64 false) = true ∧ fLe f64NaN f64NaN = false := by decide +kernel
end Sys2Proof.Tests
end

section
/-! SUPPORT. A write into the sample windows as it arrives: what the Frame Assembler takes each word as, and what the
transaction then waits for (R48 to R59). -/
namespace Sys2Proof.Machine.SampleFrames

/-! ### The word a frame expects, a head, and a word with no role -/

/-- The state after a word was taken that tears its master's frame on arrival. -/
def tornBy (k : Taken) (tag : Fin 8) (s : State) : State := if k.tears then tear tag s else s

theorem tear_open {tag : Fin 8} {s : State} {f : OpenFrame} (h : s.asm.records.get tag = some f) :
    tear tag s = tornFrame tag f s := by
  simp only [tear, h]
  rfl

@[simp] theorem tornFrame_asm (tag : Fin 8) (f : OpenFrame) (s : State) :
    (tornFrame tag f s).asm = { s.asm with records := upd s.asm.records tag none, torn := s.asm.torn + 1 } :=
  mark_asm _ _

theorem tear_record (tag : Fin 8) (s : State) : (tear tag s).asm.records.get tag = none := by
  cases h : s.asm.records.get tag with
  | none => simp only [tear, h]
  | some f => simp [tear_open h]

@[simp] theorem tear_cls (tag : Fin 8) (s : State) : (tear tag s).cls = s.cls := by
  unfold tear
  split <;> simp

@[simp] theorem tear_arith (tag : Fin 8) (s : State) : (tear tag s).arith = s.arith := by
  unfold tear
  split <;> simp

@[simp] theorem tear_inEffect (tag : Fin 8) (s : State) : (tear tag s).inEffect = s.inEffect := by
  unfold tear
  split
  · rfl
  · exact mark_inEffect _ _

@[simp] theorem tear_windowOf (tag : Fin 8) (s : State) (a : Addr) : windowOf (tear tag s) a = windowOf s a := by
  simp only [windowOf, windowUnder, tear_inEffect, controlOffset_congr (congrArg _ (tear_path tag s))]

/-- What a value word is taken as depends on the conversions alone. -/
theorem takeValue_congr {s t : State} (ha : t.arith = s.arith) (f : OpenFrame) (d : Word) :
    takeValue t f d = takeValue s f d := by
  unfold takeValue
  rw [ha]

/-- What a head is taken as depends on the Classifier and the settings alone. -/
theorem takeHead_congr {s t : State} (hc : t.cls = s.cls) (hs : t.inEffect = s.inEffect) (tag : Fin 8) (w : Fin 4)
    (a : Addr) (d : Word) (tears : Bool) : takeHead t tag w a d tears = takeHead s tag w a d tears := by
  unfold takeHead firstLookup
  rw [hc, hs]

/-- What a word is taken as depends on the Classifier, the conversions and the settings alone. -/
theorem takeWord_congr {s t : State} (hc : t.cls = s.cls) (ha : t.arith = s.arith) (hs : t.inEffect = s.inEffect)
    (tag : Fin 8) (record : Option OpenFrame) (w : Fin 4) (a : Addr) (d : Word) :
    takeWord t tag record w a d = takeWord s tag record w a d := by
  cases record <;> simp only [takeWord, takeContinuation, takeValue_congr ha, takeHead_congr hc hs, hs]

/-- A frame of kind SUMMARY has eight words, any other four (R44). -/
theorem frameLength_eq (k : BitVec 4) : frameLength k = if k = 8 then 8 else 4 := rfl

/-- No frame of this record expects a word at `a` (R47, R48). -/
def Unexpected (record : Option OpenFrame) (a : Addr) : Prop :=
  ∀ f, record = some f → a ≠ f.address + BitVec.ofNat 24 (4 * f.next)

/-- An EMPTY record expects no word. -/
theorem unexpected_empty {record : Option OpenFrame} (h : record = none) (a : Addr) : Unexpected record a := by
  simp [Unexpected, h]

/-- An open frame expects no word but the one at its expected address. -/
theorem unexpected_open {record : Option OpenFrame} {f : OpenFrame} {a : Addr} (h : record = some f)
    (ha : a ≠ f.address + BitVec.ofNat 24 (4 * f.next)) : Unexpected record a := by
  intro g hg
  obtain rfl := Option.some.inj (h.symm.trans hg)
  exact ha

/-- A word whose role a frame waits for is taken as that frame's continuation (R48). -/
theorem takeWord_expected (s : State) (tag : Fin 8) (f : OpenFrame) (w : Fin 4) {a : Addr} (d : Word)
    (h : a = f.address + BitVec.ofNat 24 (4 * f.next)) :
    takeWord s tag (some f) w a d = takeContinuation s f d :=
  if_pos h

/-- A head opens its frame, and tears one that did not expect it (R48, R50). -/
theorem takeWord_head (s : State) (tag : Fin 8) (record : Option OpenFrame) (w : Fin 4) {a : Addr} {d : Word}
    (hd : isHead s a d) (hr : Unexpected record a) :
    takeWord s tag record w a d = ⟨(frameOpened s tag w a d).1.storedHead,
      .opens (frameOpened s tag w a d).1 (frameOpened s tag w a d).2, record.isSome⟩ := by
  have key (tears : Bool) : takeHead s tag w a d tears = ⟨(frameOpened s tag w a d).1.storedHead,
      .opens (frameOpened s tag w a d).1 (frameOpened s tag w a d).2, tears⟩ := by
    cases hl : firstLookup s ⟨tag, w, d⟩ <;>
      simp [takeHead, frameOpened, hl, OpenFrame.storesConverted, headConverted, frameFits, frameLength_eq]
  cases record with
  | none => exact (if_pos hd).trans (key false)
  | some f => exact ((if_neg (hr f rfl)).trans (if_pos hd)).trans (key true)

/-- Any other word has no role, and tears a frame that did not expect it (R48, R49). -/
theorem takeWord_stray (s : State) (tag : Fin 8) (record : Option OpenFrame) (w : Fin 4) {a : Addr} {d : Word}
    (hd : ¬isHead s a d) (hr : Unexpected record a) :
    takeWord s tag record w a d = ⟨d, .nothing, record.isSome⟩ := by
  cases record with
  | none => exact if_neg hd
  | some f => exact (if_neg (hr f rfl)).trans (if_neg hd)

/-! ### The continuations -/

theorem takeContinuation_plain (s : State) {f : OpenFrame} (d : Word) (h : isPlain f f.next) :
    takeContinuation s f d = ⟨d, .advances d, false⟩ :=
  (if_neg h.1).trans (if_neg h.2)

/-- The store form CONVERTED acts on the frame (R55). -/
theorem storesConverted_iff (f : OpenFrame) : f.storesConverted = true ↔
    f.length = 4 ∧ f.lookup.any (fun l => l.action.store == .converted) = true := by
  cases h : f.lookup <;> simp [OpenFrame.storesConverted, h]

/-- The conversion step gives the value and the kinds of R93, or those of R94. -/
theorem convertValue_eq (c : Option Conversion) (d : Word) :
    convertValue c d = ⟨(conversionOf c d).1, (conversionOf c d).2⟩ := by
  cases c with
  | none => rfl
  | some c =>
    obtain ⟨form, root, scale, offset, coefficient⟩ := c
    cases form with
    | signed => cases root <;> rfl
    | unsigned => cases root <;> rfl
    | float =>
      by_cases hn : f32IsNaN d = true <;> cases root <;> simp [convertValue, conversionOf, hn, invalidResult]

theorem takeContinuation_value (s : State) {f : OpenFrame} (d : Word) (hl : f.length = 4) (hn : f.next = 2) :
    takeContinuation s f d = ⟨(valueTaken s f d).1, (valueTaken s f d).2, false⟩ := by
  have hc : takeContinuation s f d = takeValue s f d := by
    unfold takeContinuation
    rw [if_neg (by omega), if_pos ⟨hl, hn⟩]
  rw [hc]
  cases h : f.lookup with
  | none => simp [takeValue, valueTaken, h]
  | some l => simp [takeValue, valueTaken, h, convertValue_eq, OpenFrame.storesConverted]

theorem takeContinuation_check (s : State) {f : OpenFrame} (d : Word) (hn : f.next + 1 = f.length) :
    takeContinuation s f d = ⟨checkStored f f.received (f.storedValue.getD (wordAt f.received 2)) d,
      .closes (verdict f.received d), false⟩ := by
  have hc : takeContinuation s f d = takeCheck f d := if_pos hn
  rw [hc]
  simp [takeCheck, checkStored, verdict, checkWord, ← storesConverted_iff]

/-! ### Arrival -/

theorem exec_write_open {tag : Fin 8} {addr : Addr} {size : Size} {s : State} (d : Word) (ho : OpenTo tag s)
    (ha : aligned size addr = true) : exec (.write tag addr size d) s =
      .next (decodeWrite ⟨tag, .write, addr, size, d, 0⟩ (becomeCurrent ⟨tag, .write, addr, size, d, 0⟩ s)) := by
  show arrive _ (aligned size addr) _ s = _
  rw [ha, arrive_free _ _ _ ho.1, screen_open _ _ _ ho (.inr (.inl rfl))]

theorem exec_pairWrite_open {tag : Fin 8} {addr : Addr} {s : State} (d0 d1 : Word) (ho : OpenTo tag s)
    (ha : aligned .word addr = true) : exec (.pairWrite tag addr d0 d1) s =
      .next (decodeWrite ⟨tag, .pairWrite, addr, .word, d0, d1⟩
        (becomeCurrent ⟨tag, .pairWrite, addr, .word, d0, d1⟩ s)) := by
  show arrive _ (aligned .word addr) _ s = _
  rw [ha, arrive_free _ _ _ ho.1, screen_open _ _ _ ho (.inr (.inr (.inr rfl)))]

/-- A tear and the arrival of a transaction do not see each other. -/
theorem tear_becomeCurrent (tag : Fin 8) (t : Transaction) (s : State) :
    tear tag (becomeCurrent t s) = becomeCurrent t (tear tag s) := by
  unfold becomeCurrent
  rw [tear_withPath, tear_path]

theorem tornBy_becomeCurrent (k : Taken) (tag : Fin 8) (t : Transaction) (s : State) :
    tornBy k tag (becomeCurrent t s) = becomeCurrent t (tornBy k tag s) := by
  unfold tornBy
  split
  · exact tear_becomeCurrent tag t s
  · rfl

@[simp] theorem tornBy_windowOf (k : Taken) (tag : Fin 8) (s : State) (a : Addr) :
    windowOf (tornBy k tag s) a = windowOf s a := by
  unfold tornBy
  split <;> simp

/-- The record that the second word of a pair finds: EMPTY after a tear. -/
theorem tornBy_record (k : Taken) (tag : Fin 8) (s : State) :
    (tornBy k tag s).asm.records.get tag = if k.tears then none else s.asm.records.get tag := by
  unfold tornBy
  split
  · exact tear_record tag s
  · rfl

@[simp] theorem takeWord_tornBy (k : Taken) (s : State) (tag : Fin 8) (record : Option OpenFrame) (w : Fin 4) (a : Addr)
    (d : Word) : takeWord (tornBy k tag s) tag record w a d = takeWord s tag record w a d := by
  unfold tornBy
  split
  · exact takeWord_congr (tear_cls tag s) (tear_arith tag s) (tear_inEffect tag s) _ _ _ _ _
  · rfl

@[simp] theorem takeWord_becomeCurrent (t : Transaction) (s : State) (tag : Fin 8) (record : Option OpenFrame)
    (w : Fin 4) (a : Addr) (d : Word) : takeWord (becomeCurrent t s) tag record w a d = takeWord s tag record w a d :=
  takeWord_congr rfl rfl rfl _ _ _ _ _

/-- The words that a pair addresses (R4). -/
theorem wordsOf_pairWrite (tag : Fin 8) {addr : Addr} (d0 d1 : Word) (ha : aligned .word addr = true) :
    wordsOf ⟨tag, .pairWrite, addr, .word, d0, d1⟩ = [addr, nextWord addr] := by
  show [wordOf addr, nextWord (wordOf addr)] = _
  rw [wordOf_aligned addr ha]

/-- A write with no word in the control area goes to the Frame Assembler (R9). -/
theorem decodeWrite_outside (t : Transaction) (s : State) (h : ∀ a ∈ wordsOf t, isControl s a = false) :
    decodeWrite t s = holdForAssembler t s := by
  have hc : (wordsOf t).any (isControl s) = false := by simpa using h
  simp [decodeWrite, hc]

/-- So does one of the control master's, at no owned word, that carries no commit and no command word (R9, R10). -/
theorem decodeWrite_unheld (t : Transaction) (s : State) (hm : t.tag.val = s.path.controlTag.toNat) (hs : t.size = .word)
    (ho : ∀ a ∈ wordsOf t, isOwned s a = false) (hh : heldFor t s = none) :
    decodeWrite t s = holdForAssembler t s := by
  have ho' : (wordsOf t).any (isOwned s) = false := by simpa using ho
  simp [decodeWrite, holdForFetch, hm, hs, ho', hh]

/-! ### What the two words of a write are held as -/

theorem holdFirst_inside (t : Transaction) {s : State} (tag : Fin 8) {a : Addr} {w : Fin 4} (d : Word)
    (h : windowOf s a = some w) : holdFirst tag a d (becomeCurrent t s) =
      let k := takeWord s tag (s.asm.records.get tag) w a d
      (k.stored, [⟨a, false, false, k.effect⟩], becomeCurrent t (tornBy k tag s)) := by
  unfold holdFirst
  simp only [windowOf_becomeCurrent, h, takeWord_becomeCurrent, becomeCurrent_asm]
  rw [← tornBy_becomeCurrent]
  rfl

theorem holdFirst_outside (t : Transaction) {s : State} (tag : Fin 8) {a : Addr} (d : Word) (h : windowOf s a = none) :
    holdFirst tag a d (becomeCurrent t s) = (d, [], becomeCurrent t s) := by
  simp only [holdFirst, windowOf_becomeCurrent, h]

/-- The second word after one that was held is taken as that word's DONE would leave the record (R59). -/
theorem holdSecond_after (t : Transaction) {s : State} (tag : Fin 8) {a : Addr} {w : Fin 4} (d : Word) (hold : WordHold)
    (h : windowOf s a = some w) : holdSecond tag a d [hold] (becomeCurrent t s) =
      let k := takeWord s tag (effectOnRecord hold.effect (s.asm.records.get tag)) w a d
      (k.stored, [hold, ⟨a, k.tears, false, k.effect⟩], becomeCurrent t s) := by
  simp [holdSecond, provisional, h]

theorem holdSecond_alone (t : Transaction) {s : State} (tag : Fin 8) {a : Addr} {w : Fin 4} (d : Word)
    (h : windowOf s a = some w) : holdSecond tag a d [] (becomeCurrent t s) =
      let k := takeWord s tag (s.asm.records.get tag) w a d
      (k.stored, [⟨a, false, false, k.effect⟩], becomeCurrent t (tornBy k tag s)) := by
  unfold holdSecond
  simp only [windowOf_becomeCurrent, h, provisional, takeWord_becomeCurrent, becomeCurrent_asm, List.isEmpty_nil,
    Bool.and_true, List.nil_append]
  split
  next ht => rw [tear_becomeCurrent, tornBy, if_pos ht]
  next ht => rw [tornBy, if_neg ht, Bool.eq_false_iff.mpr ht]

theorem holdSecond_outside (t : Transaction) {s : State} (tag : Fin 8) {a : Addr} (d : Word) (holds : List WordHold)
    (h : windowOf s a = none) : holdSecond tag a d holds (becomeCurrent t s) = (d, holds, becomeCurrent t s) := by
  simp only [holdSecond, windowOf_becomeCurrent, h]

/-! ### Writes of a word, and pairs with one word or both in a window -/

theorem exec_write_word {tag : Fin 8} {addr : Addr} {w : Fin 4} {s : State} (d : Word) (ho : OpenTo tag s)
    (ha : aligned .word addr = true) (hw : windowOf s addr = some w) : exec (.write tag addr .word d) s =
      let k := takeWord s tag (s.asm.records.get tag) w addr d
      .next (waiting ⟨tag, .write, addr, .word, d, 0⟩
        (.pass ⟨.write, .word, addr, k.stored, 0⟩ [⟨addr, false, false, k.effect⟩]) (tornBy k tag s)) := by
  rw [exec_write_open d ho ha, decodeWrite_outside]
  · simp only [holdForAssembler, holdFirst_inside _ _ _ hw, setPhase_becomeCurrent, Transaction.plainAccess]
  · intro a hm
    rw [List.mem_singleton.mp hm, wordOf_aligned addr ha]
    exact not_control_of_window hw

/-- A byte or a half in a window passes unchanged and tears (R49). -/
theorem exec_write_part {tag : Fin 8} {addr : Addr} {size : Size} {w : Fin 4} {s : State} (d : Word) (ho : OpenTo tag s)
    (ha : aligned size addr = true) (hw : windowOf s (wordOf addr) = some w) (hs : size ≠ .word) :
    exec (.write tag addr size d) s =
      .next (waiting ⟨tag, .write, addr, size, d, 0⟩ (.pass ⟨.write, size, addr, d, 0⟩ []) (tear tag s)) := by
  rw [exec_write_open d ho ha, decodeWrite_outside]
  · have ht : holdForAssembler ⟨tag, .write, addr, size, d, 0⟩ (becomeCurrent ⟨tag, .write, addr, size, d, 0⟩ s) =
        tear tag (becomeCurrent ⟨tag, .write, addr, size, d, 0⟩ s) := by
      cases size <;> simp_all [holdForAssembler]
    rw [ht, tear_becomeCurrent, becomeCurrent_waiting]
    rfl
  · intro a hm
    rw [List.mem_singleton.mp hm]
    exact not_control_of_window hw

/-- What the words of a pair must be for it to pass (R10): outside the control area, or the control master's and not owned. -/
def MayPass (tag : Fin 8) (a : Addr) (s : State) : Prop :=
  isControl s a = false ∨ (tag.val = s.path.controlTag.toNat ∧ isOwned s a = false)

/-- No commit and no command word is carried by a pair whose first word lies outside the control area, or whose second does
when the first stands at the area's end (R27, R29). -/
theorem heldFor_none {tag : Fin 8} {addr : Addr} {s : State} (d0 d1 : Word) (ha : aligned .word addr = true)
    (h : isControl s addr = false ∨ isControl s (nextWord addr) = false) :
    heldFor ⟨tag, .pairWrite, addr, .word, d0, d1⟩ s = none := by
  unfold heldFor
  cases hc : controlOffset s addr with
  | none => rfl
  | some off =>
    have hn : controlOffset s (nextWord addr) = none := by
      simpa [isControl, hc] using h
    have ho : off = 0x7FFC := by
      have hb := s.path.baseStraps.isLt
      have h4 : (nextWord addr).toNat = (addr.toNat + 4) % 2 ^ 24 := BitVec.toNat_add addr 4
      simp only [aligned, beq_iff_eq] at ha
      rw [controlOffset_eq] at hc hn
      split at hc
      next hin =>
        split at hn
        next => cases hn
        next hout =>
          have he := Option.some.inj hc
          omega
      next => cases hc
    subst ho
    rfl

/-- A pair with a word in a window whose other word may pass goes to the Frame Assembler. -/
theorem decodeWrite_pair {tag : Fin 8} {addr : Addr} {s : State} (d0 d1 : Word) (ha : aligned .word addr = true)
    (h0 : MayPass tag addr s) (h1 : MayPass tag (nextWord addr) s)
    (hc : isControl s addr = false ∨ isControl s (nextWord addr) = false) :
    let t : Transaction := ⟨tag, .pairWrite, addr, .word, d0, d1⟩
    decodeWrite t (becomeCurrent t s) = holdForAssembler t (becomeCurrent t s) := by
  intro t
  have owned (a : Addr) (h : MayPass tag a s) : isOwned s a = false := by
    rcases h with h | h
    · cases ho : controlOffset s a with
      | none => simp [isOwned, ho]
      | some off => simp [isControl, ho] at h
    · exact h.2
  have hwords : wordsOf t = [addr, nextWord addr] := wordsOf_pairWrite tag d0 d1 ha
  by_cases hm : tag.val = s.path.controlTag.toNat
  · refine decodeWrite_unheld t _ hm rfl (fun a hx => ?_) (heldFor_none d0 d1 ha hc)
    rw [hwords] at hx
    rw [isOwned_becomeCurrent]
    rcases List.mem_pair.mp hx with rfl | rfl
    · exact owned _ h0
    · exact owned _ h1
  · have out (a : Addr) (h : MayPass tag a s) : isControl s a = false := h.resolve_right fun h => hm h.1
    refine decodeWrite_outside t _ fun a hx => ?_
    rw [hwords] at hx
    rcases List.mem_pair.mp hx with rfl | rfl
    · exact out _ h0
    · exact out _ h1

/-- A pair with both words in a window, the second of which tears nothing. -/
theorem exec_pairWrite_both {tag : Fin 8} {addr : Addr} {w0 w1 : Fin 4} {d0 d1 : Word} {s : State} {k0 k1 : Taken}
    (ho : OpenTo tag s) (ha : aligned .word addr = true) (hw0 : windowOf s addr = some w0)
    (hw1 : windowOf s (nextWord addr) = some w1) (h0 : takeWord s tag (s.asm.records.get tag) w0 addr d0 = k0)
    (h1 : takeWord s tag (effectOnRecord k0.effect (if k0.tears then none else s.asm.records.get tag)) w1
      (nextWord addr) d1 = k1) (ht : k1.tears = false) :
    exec (.pairWrite tag addr d0 d1) s =
      .next (pairWaits tag addr d0 d1 k0.stored k1.stored k0.effect k1.effect (tornBy k0 tag s)) := by
  have hc0 := not_control_of_window hw0
  rw [exec_pairWrite_open d0 d1 ho ha,
    decodeWrite_pair d0 d1 ha (.inl hc0) (.inl (not_control_of_window hw1)) (.inl hc0)]
  have hw1' : windowOf (tornBy k0 tag s) (nextWord addr) = some w1 := (tornBy_windowOf _ _ _ _).trans hw1
  simp only [holdForAssembler, holdFirst_inside _ _ _ hw0, h0, holdSecond_after _ _ _ _ hw1', takeWord_tornBy,
    tornBy_record, h1, ht, setPhase_becomeCurrent]
  rfl

/-- A pair whose second word alone lies in a window. -/
theorem exec_pairWrite_second {tag : Fin 8} {addr : Addr} {w : Fin 4} {s : State} (d0 d1 : Word) (ho : OpenTo tag s)
    (ha : aligned .word addr = true) (h0 : MayPass tag addr s) (hw0 : windowOf s addr = none)
    (hw1 : windowOf s (nextWord addr) = some w) : exec (.pairWrite tag addr d0 d1) s =
      let k := takeWord s tag (s.asm.records.get tag) w (nextWord addr) d1
      .next (waiting ⟨tag, .pairWrite, addr, .word, d0, d1⟩
        (.pass ⟨.pairWrite, .word, addr, d0, k.stored⟩ [⟨nextWord addr, false, false, k.effect⟩]) (tornBy k tag s)) := by
  have hc := not_control_of_window hw1
  rw [exec_pairWrite_open d0 d1 ho ha, decodeWrite_pair d0 d1 ha h0 (.inl hc) (.inr hc)]
  simp only [holdForAssembler, holdFirst_outside _ _ _ hw0, holdSecond_alone _ _ _ hw1, setPhase_becomeCurrent]
  rfl

/-- A pair whose first word alone lies in a window. -/
theorem exec_pairWrite_first {tag : Fin 8} {addr : Addr} {w : Fin 4} {s : State} (d0 d1 : Word) (ho : OpenTo tag s)
    (ha : aligned .word addr = true) (h1 : MayPass tag (nextWord addr) s) (hw0 : windowOf s addr = some w)
    (hw1 : windowOf s (nextWord addr) = none) : exec (.pairWrite tag addr d0 d1) s =
      let k := takeWord s tag (s.asm.records.get tag) w addr d0
      .next (waiting ⟨tag, .pairWrite, addr, .word, d0, d1⟩
        (.pass ⟨.pairWrite, .word, addr, k.stored, d1⟩ [⟨addr, false, false, k.effect⟩]) (tornBy k tag s)) := by
  have hc := not_control_of_window hw0
  rw [exec_pairWrite_open d0 d1 ho ha, decodeWrite_pair d0 d1 ha (.inl hc) h1 (.inl hc)]
  simp only [holdForAssembler, holdFirst_inside _ _ _ hw0, setPhase_becomeCurrent,
    holdSecond_outside _ _ _ _ ((tornBy_windowOf _ _ _ _).trans hw1)]
  rfl

/-! ### A word taken alone, by its role -/

theorem tornBy_empty {tag : Fin 8} {s : State} (h : s.asm.records.get tag = none) (x : Word) (e : WordEffect) :
    tornBy ⟨x, e, (s.asm.records.get tag).isSome⟩ tag s = s := by
  rw [h]
  rfl

theorem tornBy_open {tag : Fin 8} {s : State} {f : OpenFrame} (h : s.asm.records.get tag = some f) (x : Word)
    (e : WordEffect) : tornBy ⟨x, e, (s.asm.records.get tag).isSome⟩ tag s = tornFrame tag f s := by
  rw [h]
  exact tear_open h

/-- A transaction that waits with one word taken alone: the word is a stray word or a head against an EMPTY record and
against a frame that expects another address, and a continuation of a frame that expects it (R48 to R56). -/
theorem taken_alone {run : Host.Outcome State Fault Refusal} (wait : Word → WordEffect → State → State) (s : State)
    (tag : Fin 8) (w : Fin 4) (a : Addr) (d : Word)
    (h : run = let k := takeWord s tag (s.asm.records.get tag) w a d
      .next (wait k.stored k.effect (tornBy k tag s))) :
    let frame := (frameOpened s tag w a d).1
    let fits := (frameOpened s tag w a d).2
    (s.asm.records.get tag = none →
      (¬isHead s a d → run = .next (wait d .nothing s))
      ∧ (isHead s a d → run = .next (wait frame.storedHead (.opens frame fits) s)))
    ∧ (∀ f, s.asm.records.get tag = some f → a ≠ f.address + BitVec.ofNat 24 (4 * f.next) →
      (¬isHead s a d → run = .next (wait d .nothing (tornFrame tag f s)))
      ∧ (isHead s a d → run = .next (wait frame.storedHead (.opens frame fits) (tornFrame tag f s))))
    ∧ ∀ f, s.asm.records.get tag = some f → a = f.address + BitVec.ofNat 24 (4 * f.next) →
      (isPlain f f.next → run = .next (wait d (.advances d) s))
      ∧ (f.length = 4 → f.next = 2 → run = .next (wait (valueTaken s f d).1 (valueTaken s f d).2 s))
      ∧ (f.next + 1 = f.length → run =
        .next (wait (checkStored f f.received (f.storedValue.getD (wordAt f.received 2)) d)
          (.closes (verdict f.received d)) s)) := by
  intro frame fits
  refine ⟨fun hr => ?_, fun f hr ha => ?_, fun f hr ha => ?_⟩
  · refine ⟨fun hd => ?_, fun hd => ?_⟩
    · simpa only [takeWord_stray s tag _ w hd (unexpected_empty hr _), tornBy_empty hr] using h
    · simpa only [takeWord_head s tag _ w hd (unexpected_empty hr _), tornBy_empty hr] using h
  · refine ⟨fun hd => ?_, fun hd => ?_⟩
    · simpa only [takeWord_stray s tag _ w hd (unexpected_open hr ha), tornBy_open hr] using h
    · simpa only [takeWord_head s tag _ w hd (unexpected_open hr ha), tornBy_open hr] using h
  · have hk := takeWord_expected s tag f w d ha
    rw [h, hr]
    refine ⟨fun hp => ?_, fun hl hn => ?_, fun hn => ?_⟩
    · rw [hk, takeContinuation_plain s d hp]
      rfl
    · rw [hk, takeContinuation_value s d hl hn]
      rfl
    · rw [hk, takeContinuation_check s d hn]
      rfl

end Sys2Proof.Machine.SampleFrames
end

section
/-! The statements about words in the sample windows. -/
namespace Sys2Proof.Machine.SampleFrames

/-- After a head that fits, the next word of its pair is word 1 of its frame; after one that does not, a stray word (R59). -/
theorem takeWord_after_head (s : State) (tag : Fin 8) (record : Option OpenFrame) (w w1 : Fin 4) {addr : Addr} {h : Word}
    (d : Word) (hh : isHead s addr h) :
    takeWord s tag (effectOnRecord (.opens (frameOpened s tag w addr h).1 (frameOpened s tag w addr h).2) record) w1
      (nextWord addr) d = ⟨d, if (frameOpened s tag w addr h).2 = true then .advances d else .nothing, false⟩ := by
  show takeWord s tag (if (frameOpened s tag w addr h).2 = true then some (frameOpened s tag w addr h).1 else none) w1 _
    d = _
  by_cases hf : (frameOpened s tag w addr h).2 = true
  · rw [if_pos hf, if_pos hf]
    have hplain : isPlain (frameOpened s tag w addr h).1 (frameOpened s tag w addr h).1.next := by
      show ¬(2 = if headKind h = 8 then 8 else 4) ∧ ¬(_ ∧ 1 = 2)
      split <;> simp
    have hx : nextWord addr = (frameOpened s tag w addr h).1.address + BitVec.ofNat 24
        (4 * (frameOpened s tag w addr h).1.next) := rfl
    rw [takeWord_expected s tag _ w1 d hx, takeContinuation_plain s d hplain]
  · rw [if_neg hf, if_neg hf]
    have hodd : ¬isHead s (nextWord addr) d := by
      intro hd
      have h4 : (nextWord addr).toNat = (addr.toNat + 4) % 2 ^ 24 := BitVec.toNat_add addr 4
      have h0 := hh.1
      have h1 := hd.1
      omega
    exact takeWord_stray s tag none w1 hodd (unexpected_empty rfl _)

/-- Settles O14: the head alone by its role, the pair by the frame that its head leaves open. -/
theorem headWordHeld : Obligations.HeadWordHeld := by
  intro s tag addr w h ho hw hh frame fits wait pair
  have ha : aligned .word addr = true := by
    have h16 := hh.1
    simp only [aligned, beq_iff_eq]
    omega
  obtain ⟨empty, torn, -⟩ := taken_alone
    (fun stored e => waiting ⟨tag, .write, addr, .word, h, 0⟩
      (.pass ⟨.write, .word, addr, stored, 0⟩ [⟨addr, false, false, e⟩])) s tag w addr h (exec_write_word h ho ha hw)
  have both (hx : Unexpected (s.asm.records.get tag) addr) (d : Word)
      (hw1 : (windowOf s (nextWord addr)).isSome = true) : exec (.pairWrite tag addr h d) s =
        .next (pair d (tornBy ⟨frame.storedHead, .opens frame fits, (s.asm.records.get tag).isSome⟩ tag s)) := by
    obtain ⟨w1, hw1⟩ := Option.isSome_iff_exists.mp hw1
    exact exec_pairWrite_both ho ha hw hw1 (takeWord_head s tag _ w hh hx) (takeWord_after_head s tag _ w w1 d hh) rfl
  refine ⟨fun hr => ⟨(empty hr).2 hh, fun d hw1 => ?_⟩, fun f hr hx => ⟨(torn f hr hx).2 hh, fun d hw1 => ?_⟩⟩
  · rw [both (unexpected_empty hr _) d hw1, tornBy_empty hr]
  · rw [both (unexpected_open hr hx) d hw1, tornBy_open hr]

/-- The record that a stray word of this master leaves is EMPTY. -/
theorem record_after_stray (record : Option OpenFrame) :
    effectOnRecord .nothing (if record.isSome then none else record) = none := by
  cases record <;> rfl

/-- A pair whose first word is a stray word (R59). -/
theorem exec_pairWrite_stray {tag : Fin 8} {addr : Addr} {w0 w1 : Fin 4} {d0 : Word} (d1 : Word) {s : State}
    (ho : OpenTo tag s) (ha : aligned .word addr = true) (hw0 : windowOf s addr = some w0)
    (hw1 : windowOf s (nextWord addr) = some w1) (hd : ¬isHead s addr d0)
    (hx : Unexpected (s.asm.records.get tag) addr) :
    let torn := tornBy ⟨d0, .nothing, (s.asm.records.get tag).isSome⟩ tag s
    let frame := (frameOpened s tag w1 (nextWord addr) d1).1
    let fits := (frameOpened s tag w1 (nextWord addr) d1).2
    (¬isHead s (nextWord addr) d1 →
        exec (.pairWrite tag addr d0 d1) s = .next (pairWaits tag addr d0 d1 d0 d1 .nothing .nothing torn))
      ∧ (isHead s (nextWord addr) d1 → exec (.pairWrite tag addr d0 d1) s =
        .next (pairWaits tag addr d0 d1 d0 frame.storedHead .nothing (.opens frame fits) torn)) := by
  have hnone := unexpected_empty (record := none) rfl (nextWord addr)
  have h0 := takeWord_stray s tag (s.asm.records.get tag) w0 hd hx
  refine ⟨fun h1 => ?_, fun h1 => ?_⟩
  · refine exec_pairWrite_both (k1 := ⟨d1, .nothing, false⟩) ho ha hw0 hw1 h0 ?_ rfl
    rw [record_after_stray]
    exact takeWord_stray s tag none w1 h1 hnone
  · refine exec_pairWrite_both (k1 := ⟨_, .opens _ _, false⟩) ho ha hw0 hw1 h0 ?_ rfl
    rw [record_after_stray]
    exact takeWord_head s tag none w1 h1 hnone

/-- Settles O15: words and pairs with one word in a window by the role of the word taken alone, other pairs by their second
word against the EMPTY record. -/
theorem strayWordPasses : Obligations.StrayWordPasses := by
  refine ⟨?single, ?pairs, ?second, ?first⟩
  case second =>
    intro s tag addr w d0 d1 ho ha h0 hw0 hw1 run alone
    exact taken_alone alone s tag w (nextWord addr) d1 (exec_pairWrite_second d0 d1 ho ha h0 hw0 hw1)
  case first =>
    intro s tag addr w d0 d1 ho ha h1 hw0 hw1 run alone
    exact taken_alone alone s tag w addr d0 (exec_pairWrite_first d0 d1 ho ha h1 hw0 hw1)
  case single =>
    intro s tag addr size w d ho ha hw wait
    refine ⟨?_, fun hs => ?_⟩
    · rintro rfl hd
      have hn : ¬isHead s addr d := by
        simpa only [isHead, ne_eq, not_and_or, not_not, Bool.not_eq_true] using hd
      rw [wordOf_aligned addr ha] at hw
      obtain ⟨empty, torn, -⟩ := taken_alone (fun stored e => waiting ⟨tag, .write, addr, .word, d, 0⟩
        (.pass ⟨.write, .word, addr, stored, 0⟩ [⟨addr, false, false, e⟩])) s tag w addr d (exec_write_word d ho ha hw)
      exact ⟨fun hr => (empty hr).1 hn, fun f hr hx => (torn f hr hx).1 hn⟩
    · have h := exec_write_part d ho ha hw hs
      refine ⟨fun hr => ?_, fun f hr => ?_⟩
      · simpa only [tear, hr] using h
      · rw [h, tear_open hr]
  case pairs =>
    intro s tag addr w d0 d1 ho ha hw0 hd hw1 frame fits none_ opens
    obtain ⟨w0, hw0⟩ := Option.isSome_iff_exists.mp hw0
    refine ⟨fun hr => ?_, fun f hr hx => ?_⟩
    · simpa only [tornBy_empty hr] using exec_pairWrite_stray d1 ho ha hw0 hw1 hd (unexpected_empty hr _)
    · simpa only [tornBy_open hr] using exec_pairWrite_stray d1 ho ha hw0 hw1 hd (unexpected_open hr hx)

/-- The frame that a plain word leaves at its DONE (R52). -/
def afterPlain (f : OpenFrame) (d : Word) : OpenFrame := { f with received := f.received ++ [d], next := f.next + 1 }

/-- The frame that a value word leaves at its DONE (R53). -/
def afterValue (f : OpenFrame) (d stored : Word) (value : Option F64) (kinds : Kinds) : OpenFrame :=
  { f with received := f.received ++ [d], storedValue := some stored, converted := value, carried := kinds, next := 3 }

/-- The check word of a frame that is not four words long passes as received (R56). -/
theorem checkStored_raw {f : OpenFrame} (h : f.length ≠ 4) (received : List Word) (value d : Word) :
    checkStored f received value d = d :=
  if_neg fun hc => h hc.1

/-- The effect of a value word on its frame. -/
theorem valueTaken_effect (s : State) (f : OpenFrame) (d : Word) : ∃ value kinds,
    effectOnRecord (valueTaken s f d).2 (some f) = some (afterValue f d (valueTaken s f d).1 value kinds) := by
  cases h : f.lookup with
  | none => exact ⟨none, 0, by simp [valueTaken, h, effectOnRecord, afterValue]⟩
  | some l => exact ⟨_, _, by simp only [valueTaken, h]; rfl⟩

/-- The word after the expected one is the one that the frame expects next. -/
theorem nextWord_expected {a base : Addr} {n : Nat} (h : a = base + BitVec.ofNat 24 (4 * n)) :
    nextWord a = base + BitVec.ofNat 24 (4 * (n + 1)) := by
  rw [h, nextWord, BitVec.add_assoc]
  congr 1
  rw [Nat.mul_add, BitVec.ofNat_add]
  rfl

/-- A pair whose first word is the expected word of an open frame; `g` is the record as its DONE would leave it. -/
theorem exec_pairWrite_continues {tag : Fin 8} {addr : Addr} {w1 : Fin 4} {d0 d1 stored0 : Word} {e0 : WordEffect}
    {g : Option OpenFrame} {k1 : Taken} {s : State} {f : OpenFrame} (ho : OpenTo tag s) (ha : aligned .word addr = true)
    (hw0 : (windowOf s addr).isSome = true) (hw1 : windowOf s (nextWord addr) = some w1)
    (hr : s.asm.records.get tag = some f) (hx : addr = f.address + BitVec.ofNat 24 (4 * f.next))
    (h0 : takeContinuation s f d0 = ⟨stored0, e0, false⟩) (he : effectOnRecord e0 (some f) = g)
    (h1 : takeWord s tag g w1 (nextWord addr) d1 = k1) (ht : k1.tears = false) :
    exec (.pairWrite tag addr d0 d1) s = .next (pairWaits tag addr d0 d1 stored0 k1.stored e0 k1.effect s) := by
  obtain ⟨w0, hw0⟩ := Option.isSome_iff_exists.mp hw0
  have hk0 : takeWord s tag (s.asm.records.get tag) w0 addr d0 = ⟨stored0, e0, false⟩ := by
    rw [hr, takeWord_expected s tag f w0 d0 hx, h0]
  refine exec_pairWrite_both ho ha hw0 hw1 hk0 ?_ ht
  rw [hr]
  exact he ▸ h1

/-- Settles O16: the word alone by its role, the pair by the frame or the EMPTY record that its first word leaves. -/
theorem continuationHeld : Obligations.ContinuationHeld := by
  intro s tag addr d d1 f ho ha hw0 hr hx wait value check closes
  obtain ⟨w0, hw0'⟩ := Option.isSome_iff_exists.mp hw0
  obtain ⟨-, -, open_⟩ := taken_alone (fun stored e => waiting ⟨tag, .write, addr, .word, d, 0⟩
    (.pass ⟨.write, .word, addr, stored, 0⟩ [⟨addr, false, false, e⟩])) s tag w0 addr d (exec_write_word d ho ha hw0')
  obtain ⟨plain, converted, checked⟩ := open_ f hr hx
  refine ⟨plain, converted, checked, ?_⟩
  intro w hw1 run pair frame fits
  have hx1 : nextWord addr = (afterPlain f d).address + BitVec.ofNat 24 (4 * (afterPlain f d).next) :=
    nextWord_expected hx
  have hnone := unexpected_empty (record := none) rfl (nextWord addr)
  have after_plain (hp : isPlain f f.next) (k1 : Taken) (hk : takeContinuation s (afterPlain f d) d1 = k1)
      (ht : k1.tears = false) : run = .next (pair d k1.stored (.advances d) k1.effect) :=
    exec_pairWrite_continues ho ha hw0 hw1 hr hx (takeContinuation_plain s d hp) rfl
      ((takeWord_expected s tag _ w d1 hx1).trans hk) ht
  have after_check (hn : f.next + 1 = f.length) (k1 : Taken) (hk : takeWord s tag none w (nextWord addr) d1 = k1)
      (ht : k1.tears = false) : run = .next (pair check k1.stored closes k1.effect) :=
    exec_pairWrite_continues ho ha hw0 hw1 hr hx (takeContinuation_check s d hn) rfl hk ht
  refine ⟨fun hp hp1 => ?_, fun hl hn => ?_, fun hp hn => ?_, fun hl hn => ?_, fun hn hh => ?_, fun hn hh => ?_⟩
  · exact after_plain hp _ (takeContinuation_plain s d1 hp1) rfl
  · have hp : isPlain f f.next := ⟨by omega, by omega⟩
    exact after_plain hp _ (takeContinuation_value s d1 hl (congrArg (· + 1) hn)) rfl
  · have hlen : f.length ≠ 4 := fun hl => hp.2 ⟨hl, by omega⟩
    have h := after_plain hp _ (takeContinuation_check s d1 hn) rfl
    rw [checkStored_raw (f := afterPlain f d) hlen] at h
    exact h
  · obtain ⟨v, kinds, he⟩ := valueTaken_effect s f d
    have hx2 : nextWord addr = (afterValue f d value.1 v kinds).address + BitVec.ofNat 24
        (4 * (afterValue f d value.1 v kinds).next) := by
      have h := nextWord_expected hx
      rw [hn] at h
      exact h
    exact exec_pairWrite_continues ho ha hw0 hw1 hr hx (takeContinuation_value s d hl hn) he
      ((takeWord_expected s tag _ w d1 hx2).trans (takeContinuation_check s d1 hl.symm)) rfl
  · exact after_check hn _ (takeWord_head s tag none w hh hnone) rfl
  · exact after_check hn _ (takeWord_stray s tag none w hh hnone) rfl

end Sys2Proof.Machine.SampleFrames
end

section
/-! SUPPORT. The Classifier's lookups: matches under a mask, the lowest matching entry, and the key of a sample (R64 to
R73). -/
namespace Sys2Proof.Machine.SampleFrames

/-! ### Matches under a mask (R65) -/

/-- A match under a mask is agreement in the digits the mask selects. -/
theorem maskMatch_iff {n : Nat} (value mask x : BitVec n) : maskMatch value mask x = true ↔ agrees value mask x := by
  simp only [maskMatch, beq_iff_eq, agrees, BitVec.eq_of_getLsbD_eq_iff, BitVec.getLsbD_and, BitVec.getLsbD_xor]
  refine forall_congr' fun i => imp_congr_right fun _ => ?_
  cases x.getLsbD i <;> cases value.getLsbD i <;> cases mask.getLsbD i <;> simp

theorem firstFits_iff (k : FirstKey) (h : HeadKey) : k.fits h = true ↔ firstMatches k h := by
  simp only [FirstKey.fits, firstMatches, Bool.and_eq_true, maskMatch_iff, and_assoc]
  rfl

/-- Member i of the band thermometer is present when the band is at least i (R72). -/
theorem thermometer_getLsbD (band i : Nat) (h : i < 7) : (thermometer band).getLsbD i = decide (i < band) := by
  simp only [thermometer, BitVec.getLsbD_ofNat, h, decide_true, Bool.true_and, Nat.testBit_two_pow_sub_one]

theorem thermometer_agrees (value mask : BitVec 7) (band : Nat) : agrees value mask (thermometer band) ↔
    ∀ i, 1 ≤ i → i ≤ 7 → mask.getLsbD (i - 1) = true → value.getLsbD (i - 1) = decide (i ≤ band) := by
  constructor
  · intro h i h1 h7 hm
    rw [← h (i - 1) (by omega) hm, thermometer_getLsbD band _ (by omega), decide_eq_decide]
    omega
  · intro h i hi hm
    have hv := h (i + 1) (by omega) (by omega) hm
    rw [thermometer_getLsbD band i hi, show value.getLsbD i = _ from hv, decide_eq_decide]
    omega

/-- A field of one bit agrees when it is not selected or the same. -/
theorem agrees_one (value mask x : BitVec 1) : agrees value mask x ↔ (mask = 1#1 → value = x) := by
  unfold agrees
  revert value mask x
  decide

theorem secondFits_iff (k : SecondKey) (x : SampleKey) : k.fits x = true ↔ secondMatches k x := by
  cases hr : x.role <;>
    simp only [SecondKey.fits, secondMatches, Bool.and_eq_true, maskMatch_iff, and_assoc, thermometer_agrees, agrees_one,
      hr] <;> rfl

/-! ### The lowest matching entry (R66) -/

theorem mem_entryIndexes (i : Fin 64) : i ∈ entryIndexes :=
  List.mem_map.mpr ⟨i.val, List.mem_range.mpr i.isLt, Fin.ofNat_val_eq_self i⟩

/-- The first index of an ascending list that answers is the lowest. -/
theorem findSome_lowest {α : Type} (g : Fin 64 → Option α) (i : Fin 64) (x : α) (hx : g i = some x)
    (hlow : ∀ j, j < i → g j = none) (l : List (Fin 64)) (hl : l.Pairwise (· < ·)) (hi : i ∈ l) :
    l.findSome? g = some x := by
  induction l with
  | nil => cases hi
  | cons a rest ih =>
    obtain ⟨ha, hrest⟩ := List.pairwise_cons.mp hl
    rw [List.findSome?_cons]
    rcases List.mem_cons.mp hi with rfl | hi
    · rw [hx]
    · rw [hlow a (ha i hi)]
      exact ih hrest hi

theorem entryIndexes_ascending : entryIndexes.Pairwise (· < ·) := by decide

/-- What a loaded entry answers to a first lookup. -/
def firstAnswer (entries : Vector (Loaded ClassEntry) 64) (h : HeadKey) (i : Fin 64) : Option LookupResult :=
  match (entries.get i).entry with
  | some (.first key action) => if key.fits h then some ⟨i, (entries.get i).generation, action⟩ else none
  | _ => none

/-- What a loaded entry answers to a second lookup. -/
def secondAnswer (entries : Vector (Loaded ClassEntry) 64) (x : SampleKey) (i : Fin 64) : Option SecondResult :=
  match (entries.get i).entry with
  | some (.second key action) => if key.fits x then some ⟨i, (entries.get i).generation, action⟩ else none
  | _ => none

theorem firstAnswer_none {entries : Vector (Loaded ClassEntry) 64} {h : HeadKey} {i : Fin 64}
    (hn : ∀ key action, (entries.get i).entry = some (.first key action) → ¬firstMatches key h) :
    firstAnswer entries h i = none := by
  unfold firstAnswer
  split
  next key action he => exact if_neg fun hf => hn key action he ((firstFits_iff key h).mp hf)
  next => rfl

theorem secondAnswer_none {entries : Vector (Loaded ClassEntry) 64} {x : SampleKey} {i : Fin 64}
    (hn : ∀ key action, (entries.get i).entry = some (.second key action) → ¬secondMatches key x) :
    secondAnswer entries x i = none := by
  unfold secondAnswer
  split
  next key action he => exact if_neg fun hf => hn key action he ((secondFits_iff key x).mp hf)
  next => rfl

theorem firstAmong_eq (entries : Vector (Loaded ClassEntry) 64) (h : HeadKey) (l : List (Fin 64)) :
    firstAmong entries h l = l.findSome? (firstAnswer entries h) := by
  induction l with
  | nil => rfl
  | cons i rest ih =>
    rw [firstAmong, List.findSome?_cons, ih, firstAnswer]
    cases (entries.get i).entry with
    | none => rfl
    | some e =>
      cases e with
      | first key action => by_cases hf : key.fits h = true <;> simp [hf]
      | second key action => rfl

theorem secondAmong_eq (entries : Vector (Loaded ClassEntry) 64) (x : SampleKey) (l : List (Fin 64)) :
    secondAmong entries x l = l.findSome? (secondAnswer entries x) := by
  induction l with
  | nil => rfl
  | cons i rest ih =>
    rw [secondAmong, List.findSome?_cons, ih, secondAnswer]
    cases (entries.get i).entry with
    | none => rfl
    | some e =>
      cases e with
      | first key action => rfl
      | second key action => by_cases hf : key.fits x = true <;> simp [hf]

theorem firstLookup_lowest {s : State} {h : HeadKey} {i : Fin 64} {key : FirstKey} {action : FirstAction}
    (he : (s.cls.entries.get i).entry = some (.first key action)) (hm : firstMatches key h)
    (hlow : ∀ j k a, j < i → (s.cls.entries.get j).entry = some (.first k a) → ¬firstMatches k h) :
    firstLookup s h = some ⟨i, (s.cls.entries.get i).generation, action⟩ := by
  rw [firstLookup, firstAmong_eq]
  refine findSome_lowest _ i _ ?_ (fun j hj => ?_) _ entryIndexes_ascending (mem_entryIndexes i)
  · simp [firstAnswer, he, (firstFits_iff key h).mpr hm]
  · exact firstAnswer_none fun k a hk => hlow j k a hj hk

theorem secondLookup_lowest {s : State} {x : SampleKey} {i : Fin 64} {key : SecondKey} {action : SecondAction}
    (he : (s.cls.entries.get i).entry = some (.second key action)) (hm : secondMatches key x)
    (hlow : ∀ j k a, j < i → (s.cls.entries.get j).entry = some (.second k a) → ¬secondMatches k x) :
    secondLookup s x = some ⟨i, (s.cls.entries.get i).generation, action⟩ := by
  rw [secondLookup, secondAmong_eq]
  refine findSome_lowest _ i _ ?_ (fun j hj => ?_) _ entryIndexes_ascending (mem_entryIndexes i)
  · simp [secondAnswer, he, (secondFits_iff key x).mpr hm]
  · exact secondAnswer_none fun k a hk => hlow j k a hj hk

/-! ### The key of a sample (R70 to R73) -/

/-- The bits of eight flags placed as a number. -/
theorem eightFlags_getLsbD (m : Fin 8 → Bool) (i : Fin 8) :
    (BitVec.ofNat 8 ((m 0).toNat + 2 * (m 1).toNat + 4 * (m 2).toNat + 8 * (m 3).toNat + 16 * (m 4).toNat
      + 32 * (m 5).toNat + 64 * (m 6).toNat + 128 * (m 7).toNat)).getLsbD i.val = m i := by
  have hle (j : Fin 8) : (m j).toNat ≤ 1 := Bool.toNat_le (m j)
  have hi : m i = decide ((m i).toNat = 1) := by cases m i <;> rfl
  have h0 := hle 0
  have h1 := hle 1
  have h2 := hle 2
  have h3 := hle 3
  have h4 := hle 4
  have h5 := hle 5
  have h6 := hle 6
  have h7 := hle 7
  rw [BitVec.getLsbD_ofNat, decide_eq_true i.isLt, Bool.true_and, Nat.testBit_eq_decide_div_mod_eq, hi, decide_eq_decide]
  fin_cases i <;> simp only [Fin.isValue, Fin.zero_eta, Fin.mk_one, Fin.reduceFinMk] <;> omega

/-- A range checker counts a sample when it is loaded and the quantity is available and within its bounds (R70). -/
theorem checkerMember_iff (c : Option RangeChecker) (q : Quantities) : checkerMember c q = true ↔
    ∃ k x, c = some k ∧ q.get k.quantity = some x ∧ fLe (widen k.low) x = true ∧ fLe x (widen k.high) = true := by
  cases c with
  | none => simp [checkerMember]
  | some k => cases h : q.get k.quantity <;> simp [checkerMember, h]

theorem concentrationAvailable_iff (q : Quantities) :
    concentrationAvailable q = true ↔ ∃ cv, q.concentration = some cv ∧ f64IsNaN cv = false := by
  cases h : q.concentration <;> simp [concentrationAvailable, h]

theorem bandOf_available {b : Band} {q : Quantities} {cv : F64} (h : q.concentration = some cv)
    (hn : f64IsNaN cv = false) :
    bandOf (some b) q = b.thresholds.toList.countP (fun x => fLe (widen x) cv) := by
  simp [bandOf, h, hn]

theorem bandOf_zero {band : Option Band} {q : Quantities}
    (h : band = none ∨ ∀ cv, q.concentration = some cv → f64IsNaN cv = true) : bandOf band q = 0 := by
  rcases h with rfl | h
  · rfl
  · cases band with
    | none => rfl
    | some b =>
      cases hq : q.concentration with
      | none => simp [bandOf, hq]
      | some cv => simp [bandOf, hq, h cv hq]

/-! ### The quantities of a sample (R95 to R97, R120) -/

theorem clampCv_eq (q : F64) :
    clampCv q = if fLt f64One q then (f64One, true) else if fLt q 0 then (0, true) else (q, false) := rfl

theorem concentrationStep_value (e : PointEntry) (density : F64) :
    (concentrationStep e density).1.value = (concentrationOf e density).1 := by
  simp only [concentrationStep, concentrationOf, clampCv_eq]
  split
  · rfl
  · split <;> rfl

theorem densityFresh_iff (e : PointEntry) (r : PointRecord) (time : Word) : densityFresh e r time = true ↔
    r.densityPresent = true ∧ (time - r.densityTime).toNat ≤ e.pairingLimit.toNat := by
  simp [densityFresh]

/-- A VELOCITY sample with a fresh density has the three derived quantities and the density. -/
theorem velocityQuantities_fresh {e : PointEntry} {r : PointRecord} (v : F64) {time : Word}
    (h : r.densityPresent = true ∧ (time - r.densityTime).toNat ≤ e.pairingLimit.toNat) :
    (deriveSample .velocity e r v time).quantities =
      let flow := (fMul (held32 e.area) (held64 v)).value
      let cv := (concentrationOf e r.density).1
      ⟨.velocity, v, some r.density, some cv, some flow,
        some (fMul (held64 (fMul (held64 flow) (held64 cv)).value) (held32 e.solids)).value⟩ := by
  simp only [deriveSample, deriveVelocity, (densityFresh_iff e r time).mpr h, if_true, concentrationStep_value]
  rfl

/-- Without one it has its flow rate alone. -/
theorem velocityQuantities_stale {e : PointEntry} {r : PointRecord} (v : F64) {time : Word}
    (h : ¬(r.densityPresent = true ∧ (time - r.densityTime).toNat ≤ e.pairingLimit.toNat)) :
    (deriveSample .velocity e r v time).quantities =
      ⟨.velocity, v, none, none, some (fMul (held32 e.area) (held64 v)).value, none⟩ := by
  simp only [deriveSample, deriveVelocity, mt (densityFresh_iff e r time).mp h]
  rfl

theorem densityQuantities (e : PointEntry) (r : PointRecord) (v : F64) (time : Word) :
    (deriveSample .density e r v time).quantities =
      ⟨.density, v, some v, some (concentrationOf e v).1, none, none⟩ := by
  simp only [deriveSample, deriveDensity, concentrationStep_value]

/-! ### The target of a frame (R60, R68) -/

theorem targetOf_other {summary : Bool} {l : LookupResult}
    (h : l.action.disposition = .passOnly ∨ l.action.disposition = .relay) : targetOf summary (some l) = .none := by
  rcases h with h | h <;> simp only [targetOf, h]

theorem targetOf_processed {summary : Bool} {l : LookupResult}
    (h : l.action.disposition = .process ∨ l.action.disposition = .processAndRelay) :
    targetOf summary (some l) =
      if summary then if l.action.target.val < 8 then .slot (Fin.ofNat 8 l.action.target.val) else .none
      else .point l.action.target := by
  rcases h with h | h <;> simp only [targetOf, h]

end Sys2Proof.Machine.SampleFrames
end

section
/-! The statement about the lookups. -/
namespace Sys2Proof.Machine.SampleFrames

/-- Settles O38: the lowest matching entry of each lookup, the key field by field, the quantities by role, the target by
disposition. -/
theorem lookupsMade : Obligations.LookupsMade := by
  refine ⟨fun s h => ⟨?_, ?_⟩, fun s x => ⟨?_, ?_⟩, ?key, ?quantities, ?target⟩
  · exact fun i key action he hm hlow => firstLookup_lowest he hm hlow
  · intro hn
    rw [firstLookup, firstAmong_eq, List.findSome?_eq_none_iff]
    exact fun i _ => firstAnswer_none (hn i)
  · exact fun i key action he hm hlow => secondLookup_lowest he hm hlow
  · intro hn
    rw [secondLookup, secondAmong_eq, List.findSome?_eq_none_iff]
    exact fun i _ => secondAnswer_none (hn i)
  case key =>
    intro s p item q key
    refine ⟨rfl, rfl, rfl, rfl, fun i => ?_, concentrationAvailable_iff q, fun b cv hb hq hn => ?_, bandOf_zero⟩
    · show (rangeMask s q).getLsbD i.val = true ↔ _
      rw [rangeMask, eightFlags_getLsbD (fun i => checkerMember (s.cls.checkers.get i).entry q) i, checkerMember_iff]
    · show bandOf s.cls.band.entry q = _
      rw [hb, bandOf_available hq hn]
  case quantities =>
    intro e r v time flow rate fresh has
    refine ⟨fun hf => ?_, fun hf => ?_, ?_, ⟨rfl, rfl, rfl, rfl, rfl, rfl, rfl, rfl⟩⟩
    · simp [has, velocityQuantities_fresh v hf, Quantities.get, flow, rate]
    · simp [has, velocityQuantities_stale v hf, Quantities.get, flow]
    · simp [has, densityQuantities, Quantities.get]
  case target =>
    intro summary l
    refine ⟨rfl, targetOf_other, fun hp => ⟨targetOf_processed hp, fun r hr => ?_, fun h8 => ?_⟩⟩
    · rw [targetOf_processed hp, if_pos rfl, hr, if_pos r.isLt, Fin.ofNat_val_eq_self]
    · rw [targetOf_processed hp, if_pos rfl, if_neg (by omega)]

end Sys2Proof.Machine.SampleFrames
end

section
/-! SUPPORT. The engine takes a frame item: its first-lookup counter and capture, and the stages of an item that ends at its
dispatch (R78 to R83, R111, R119). -/
namespace Sys2Proof.Machine.SampleFrames

/-! ### Reservations -/

/-- The word that a record is released with is that of the current window (R171). -/
theorem releaseWord_eq (s : State) : releaseWord s = releaseAt s.engine.windowNumber s := by
  have hc := s.timer.count.isLt
  unfold releaseWord releaseAt
  rw [packed_cons _ _ _ 16 (by omega) (by simp), ← put_eq_packed]

theorem offerDigest_engine (by_ : Requester) (position : Nat) (words : List Word) (s : State) :
    (offerDigest by_ position words s).engine = s.engine := by
  unfold offerDigest
  split <;> rfl

theorem checkThreshold_engine (s : State) : (checkThreshold s).engine = s.engine := by
  unfold checkThreshold
  split <;> rfl

/-- A reservation leaves the engine as it was. -/
@[simp] theorem reserve_engine (by_ : Requester) (kind : DigestKind) (body : List Word) (s : State) :
    (reserve by_ kind body s).engine = s.engine := by
  unfold reserve
  dsimp only
  split
  · rw [checkThreshold_engine, offerDigest_engine]
    rfl
  · rw [checkThreshold_engine]
    rfl

theorem checkThreshold_setJob (j : Option Job) (s : State) : checkThreshold (setJob j s) = setJob j (checkThreshold s) := by
  unfold checkThreshold
  rw [setJob_inEffect, setJob_pub]
  split <;> rfl

theorem offerDigest_setJob (by_ : Requester) (position : Nat) (words : List Word) (j : Option Job) (s : State) :
    offerDigest by_ position words (setJob j s) = setJob j (offerDigest by_ position words s) := by
  unfold offerDigest digestRoom hasRoom
  rw [setJob_pub]
  split <;> rfl

/-- A reservation does not look at what the engine has in hand. -/
theorem reserve_setJob (by_ : Requester) (kind : DigestKind) (body : List Word) (j : Option Job) (s : State) :
    reserve by_ kind body (setJob j s) = setJob j (reserve by_ kind body s) := by
  have hk : keepReservation (setJob j s) = setJob j (keepReservation s) := rfl
  have hl : loseReservation (setJob j s) = setJob j (loseReservation s) := rfl
  have hc : canReserve (setJob j s) = canReserve s := rfl
  have hn : nextPosition (setJob j s) = nextPosition s := rfl
  have hw : releaseWord (setJob j s) = releaseWord s := rfl
  unfold reserve
  simp only [hk, hl, hc, hn, hw, setJob_pub, offerDigest_setJob, checkThreshold_setJob, apply_ite (setJob j)]

/-- After a record that the engine asked for it need not wait exactly when the record's DIGEST item found room (R164). -/
theorem reserve_holds_none_iff (kind : DigestKind) (body : List Word) (s : State) :
    (reserve .engine kind body s).pub.heldDigests.any (·.byEngine) = false ↔ RoomFor [⟨kind, body, releaseWord s⟩] s := by
  by_cases hc : s.pub.digest.sizePending = false ∧ s.pub.digest.occupied.length < s.inEffect.ringSize
  · have hcan : canReserve s = true := by simpa [canReserve] using hc
    have hroom : digestRoom (keepReservation s) = true ↔ s.pub.heldDigests = [] ∧ s.pub.queue.length + 1 ≤ 32 := by
      show (decide (s.pub.queue.length < 32) && s.pub.heldDigests.isEmpty) = true ↔ _
      rw [Bool.and_eq_true, decide_eq_true_eq, List.isEmpty_iff, and_comm, Nat.lt_iff_add_one_le]
    simp only [reserve, hcan, if_true, checkThreshold_pub, offerDigest]
    split
    next h =>
      obtain ⟨hh, hq⟩ := hroom.mp h
      simp [RoomFor, ringAfter, hc, hh, hq, joinQueue, keepReservation]
    next h =>
      have hn := mt hroom.mpr h
      simpa [RoomFor, ringAfter, hc, keepReservation] using fun _ hh => not_le.mp fun hq => hn ⟨hh, hq⟩
  · have hcan : canReserve s = false := by
      rw [Bool.eq_false_iff]
      simpa [canReserve] using hc
    simp [reserve, hcan, checkThreshold_pub, loseReservation, RoomFor, ringAfter, hc]

/-! ### The first lookup's counter and capture -/

theorem raiseHit_eq (c : Option (Fin 32)) (s : State) :
    raiseHit c s = { s with cls := { s.cls with hits := hitsAfter c s.cls.hits } } := by
  cases c <;> rfl

theorem disarm_eq (mode : CaptureMode) (e : Fin 64) (s : State) : disarm mode e s =
    { s with cls := { s.cls with armed := if mode = .next then upd s.cls.armed e false else s.cls.armed } } := by
  cases mode <;> rfl

theorem firstCaptures_eq (s : State) (l : LookupResult) : firstCaptures s l = takesFirst s l := by
  unfold firstCaptures takesFirst
  cases l.action.capture with
  | none => rfl
  | every => rfl
  | next => exact Bool.and_right_comm _ _ _

/-- Whether a first lookup captures depends on the entries and the armed flags alone. -/
theorem takesFirst_congr {s t : State} (he : t.cls.entries = s.cls.entries) (ha : t.cls.armed = s.cls.armed)
    (l : LookupResult) : takesFirst t l = takesFirst s l := by
  unfold takesFirst
  rw [he, ha]

/-- The engine's job with a frame item just taken. -/
def frameJob (f : FrameItem) (s : State) : Job := ⟨false, conditionsOf s, some (frameWork f s), none, [], [], none⟩

/-- The front item has left the work queue and is counted processed (R119). -/
def itemTaken (rest : List WorkItem) (s : State) : State :=
  { s with engine := { s.engine with workQueue := rest, processed := s.engine.processed + 1 } }

/-- The state in which the capture of a frame item is reserved: the item taken, its counter raised and a NEXT entry
disarmed. -/
def beforeCapture (l : LookupResult) (rest : List WorkItem) (s : State) : State :=
  { itemTaken rest s with
    cls := { s.cls with
      hits := hitsAfter l.action.counter s.cls.hits
      armed := if l.action.capture = .next then upd s.cls.armed l.index false else s.cls.armed } }

theorem frameTaken_captures {f : FrameItem} {l : LookupResult} {rest : List WorkItem} {s : State} (hl : f.lookup = some l)
    (ht : takesFirst s l = true) :
    frameTaken f rest s = reserve .engine .capture (firstCaptureBody f l) (beforeCapture l rest s) := by
  simp only [frameTaken, hl, ht, if_true]
  rfl

theorem frameTaken_quiet {f : FrameItem} {l : LookupResult} {rest : List WorkItem} {s : State} (hl : f.lookup = some l)
    (ht : takesFirst s l = false) : frameTaken f rest s =
      { itemTaken rest s with cls := { s.cls with hits := hitsAfter l.action.counter s.cls.hits } } := by
  simp only [frameTaken, hl, ht, Bool.false_eq_true, if_false]
  rfl

theorem frameTaken_unmatched {f : FrameItem} {rest : List WorkItem} {s : State} (hl : f.lookup = none) :
    frameTaken f rest s = itemTaken rest s := by
  simp only [frameTaken, hl]
  rfl

/-- In the engine the taking of a frame item changes the work queue and the count alone. -/
theorem frameTaken_engine (f : FrameItem) (rest : List WorkItem) (s : State) :
    (frameTaken f rest s).engine = { s.engine with workQueue := rest, processed := s.engine.processed + 1 } := by
  cases hl : f.lookup with
  | none => rw [frameTaken_unmatched hl]; rfl
  | some l =>
    cases ht : takesFirst s l with
    | false => rw [frameTaken_quiet hl ht]; rfl
    | true => rw [frameTaken_captures hl ht, reserve_engine]; rfl

theorem firstReports_captures {f : FrameItem} {l : LookupResult} {s : State} (hl : f.lookup = some l)
    (ht : takesFirst s l = true) (rest : List WorkItem) :
    firstReports f s = [⟨.capture, firstCaptureBody f l, releaseWord (beforeCapture l rest s)⟩] := by
  simp only [firstReports, hl, ht, if_true, releaseWord_eq]
  rfl

theorem firstReports_quiet {f : FrameItem} {l : LookupResult} {s : State} (hl : f.lookup = some l)
    (ht : takesFirst s l = false) : firstReports f s = [] := by
  simp only [firstReports, hl, ht, Bool.false_eq_true, if_false]

theorem firstReports_unmatched {f : FrameItem} {s : State} (hl : f.lookup = none) : firstReports f s = [] := by
  simp only [firstReports, hl]

/-! ### The taking of the item -/

theorem engineWaits_frameJob (f : FrameItem) (s t : State) :
    engineWaits (setJob (some (frameJob f s)) t) = t.pub.heldDigests.any (·.byEngine) := rfl

/-- A record and the wait behind it (R164). -/
theorem runJob_digest_await (kind : DigestKind) (body : List Word) (stages : List Stage) (s : State) :
    runJob [.digest kind body, .await] stages s =
      let t := reserve .engine kind body s
      if engineWaits t then suspend [.await] stages t else runStages stages t := by
  have hacts : runActs [.digest kind body, .await] s =
      if engineWaits (reserve .engine kind body s) then (reserve .engine kind body s, [.await])
      else (reserve .engine kind body s, []) := by
    simp [runActs, execAct]
  unfold runJob
  rw [hacts]
  cases h : engineWaits (reserve .engine kind body s) <;> simp [h]

/-- What the first lookup of an item just taken does (R78, R81, R83). -/
theorem firstEffects_captures {f : FrameItem} {l : LookupResult} {rest : List WorkItem} {s : State}
    (hl : f.lookup = some l) (ht : takesFirst s l = true) :
    firstEffects f (setJob (some (frameJob f s)) (itemTaken rest s)) =
      (setJob (some (frameJob f s)) (beforeCapture l rest s), [.digest .capture (firstCaptureBody f l), .await]) := by
  simp only [firstEffects, hl, raiseHit_eq, disarm_eq, firstCaptures_eq]
  exact if_pos ((takesFirst_congr rfl rfl l).trans ht)

theorem firstEffects_quiet {f : FrameItem} {rest : List WorkItem} {s : State} (h : firstReports f s = []) :
    firstEffects f (setJob (some (frameJob f s)) (itemTaken rest s)) =
      (setJob (some (frameJob f s)) (frameTaken f rest s), []) := by
  cases hl : f.lookup with
  | none =>
    rw [frameTaken_unmatched hl]
    simp only [firstEffects, hl]
  | some l =>
    cases ht : takesFirst s l with
    | true => simp [firstReports_captures hl ht rest] at h
    | false =>
      rw [frameTaken_quiet hl ht]
      simp only [firstEffects, hl, raiseHit_eq, firstCaptures_eq]
      exact if_neg (Bool.eq_false_iff.mp ((takesFirst_congr rfl rfl l).trans ht))

theorem takeFrame_eq (f : FrameItem) (rest : List WorkItem) (s : State) : takeFrame f rest s =
    let first := firstEffects f (setJob (some (frameJob f s)) (itemTaken rest s))
    runJob first.2 frameStages first.1 := rfl

/-- An item that captures: the record is asked for, and the engine waits or goes on with what it then holds. -/
theorem takeFrame_captures {f : FrameItem} {l : LookupResult} {rest : List WorkItem} {s : State} (hl : f.lookup = some l)
    (ht : takesFirst s l = true) : takeFrame f rest s =
      let t := setJob (some (frameJob f s)) (frameTaken f rest s)
      if (frameTaken f rest s).pub.heldDigests.any (·.byEngine) then suspend [.await] frameStages t
      else runStages frameStages t := by
  rw [takeFrame_eq, firstEffects_captures hl ht]
  simp only [runJob_digest_await, reserve_setJob, ← frameTaken_captures hl ht, engineWaits_frameJob]

/-- An item that does not capture comes to its dispatch. -/
theorem takeFrame_quiet {f : FrameItem} {rest : List WorkItem} {s : State} (h : firstReports f s = []) :
    takeFrame f rest s = runStages frameStages (setJob (some (frameJob f s)) (frameTaken f rest s)) := by
  rw [takeFrame_eq, firstEffects_quiet h]
  rfl

/-- The capture of an item leaves nothing of the engine's held back exactly when it had room. -/
theorem frameTaken_holds_none_iff {f : FrameItem} {l : LookupResult} {rest : List WorkItem} {s : State}
    (hl : f.lookup = some l) (ht : takesFirst s l = true) :
    (frameTaken f rest s).pub.heldDigests.any (·.byEngine) = false ↔ RoomFor (firstReports f s) s := by
  rw [frameTaken_captures hl ht, reserve_holds_none_iff, firstReports_captures hl ht rest]
  rfl

/-- With room for its capture, if any, an item comes to its dispatch. -/
theorem takeFrame_room {f : FrameItem} {rest : List WorkItem} {s : State} (h : RoomFor (firstReports f s) s) :
    takeFrame f rest s = runStages frameStages (setJob (some (frameJob f s)) (frameTaken f rest s)) := by
  by_cases hq : firstReports f s = []
  · exact takeFrame_quiet hq
  · cases hl : f.lookup with
    | none => exact absurd (firstReports_unmatched hl) hq
    | some l =>
      cases ht : takesFirst s l with
      | false => exact absurd (firstReports_quiet hl ht) hq
      | true =>
        rw [takeFrame_captures hl ht]
        simp only [(frameTaken_holds_none_iff hl ht).mpr h, Bool.false_eq_true, if_false]

/-- While its capture's DIGEST item waits for room an item stays before its dispatch (R164). -/
theorem takeFrame_no_room {f : FrameItem} {rest : List WorkItem} {s : State} (h : ¬RoomFor (firstReports f s) s) :
    takeFrame f rest s =
      suspend [.await] frameStages (setJob (some (frameJob f s)) (frameTaken f rest s)) := by
  have hq : firstReports f s ≠ [] := fun hq => h (.inl hq)
  cases hl : f.lookup with
  | none => exact absurd (firstReports_unmatched hl) hq
  | some l =>
    cases ht : takesFirst s l with
    | false => exact absurd (firstReports_quiet hl ht) hq
    | true =>
      have hheld := Bool.eq_true_of_not_eq_false (mt (frameTaken_holds_none_iff (rest := rest) hl ht).mp h)
      rw [takeFrame_captures hl ht]
      simp only [hheld, if_true]

/-! ### An item that ends at its dispatch -/

theorem setJob_self {j : Option Job} {s : State} (h : s.engine.job = j) : setJob j s = s := by
  subst h
  rfl

theorem conditionsOf_get (s : State) (p : Fin 16) :
    (conditionsOf s).get p = ((s.engine.points.get p).conditions, (s.engine.points.get p).hold) :=
  Vector.getElem_map _ p.isLt

/-- An item over which no point's conditions or HOLD changed has nothing to report (R118). -/
theorem reportPoints_unchanged {j : Job} {s : State} (h : j.before = conditionsOf s) : reportPoints j s = [] := by
  refine List.flatMap_eq_nil_iff.mpr fun p _ => if_pos ?_
  rw [h, conditionsOf_get]

/-- An item that asks for nothing at its dispatch and came to no second lookup is done with it. -/
theorem runStages_dispatched {f : FrameItem} {s t u : State}
    (hd : dispatchFrame (frameWork f s) (setJob (some (frameJob f s)) t) = (setJob (some (frameJob f s)) u, []))
    (hp : u.engine.points = s.engine.points) (hj : u.engine.job = none) :
    runStages frameStages (setJob (some (frameJob f s)) t) = u := by
  have h1 : enterStage .frameDispatch (setJob (some (frameJob f s)) t) = some (setJob (some (frameJob f s)) u, []) :=
    congrArg some hd
  have h2 : enterStage .frameEffects (setJob (some (frameJob f s)) u) = some (setJob (some (frameJob f s)) u, []) := rfl
  have h3 : enterStage .report (setJob (some (frameJob f s)) u) = some (setJob (some (frameJob f s)) u, []) := by
    have hb : (frameJob f s).before = conditionsOf (setJob (some (frameJob f s)) u) := by
      show conditionsOf s = u.engine.points.map _
      rw [hp]
      rfl
    exact congrArg (fun acts => some (setJob (some (frameJob f s)) u, acts)) (reportPoints_unchanged hb)
  simp only [frameStages, runStages, h1, h2, h3, runActs]
  exact setJob_self hj

/-! ### The dispatches that end an item (R119) -/

section Dispatch

variable {f : FrameItem} {l : LookupResult} {s : State} (j : Job) (t : State)

theorem dispatchFrame_unmatched (hl : f.lookup = none) :
    dispatchFrame (frameWork f s) (setJob (some j) t) =
      (setJob (some j) { t with engine := { t.engine with unclassified := t.engine.unclassified + 1 } }, []) := by
  simp only [dispatchFrame, frameWork, hl]
  rfl

theorem dispatchFrame_passOnly (hl : f.lookup = some l) (hd : l.action.disposition = .passOnly) :
    dispatchFrame (frameWork f s) (setJob (some j) t) = (setJob (some j) t, []) := by
  simp only [dispatchFrame, frameWork, hl, hd, if_true]

theorem dispatchFrame_disabledPoint (hl : f.lookup = some l) (hd : l.action.disposition ≠ .passOnly)
    (hs : f.isSummary = false) (he : s.pointEnabled l.action.target = false) :
    dispatchFrame (frameWork f s) (setJob (some j) t) = (setJob (some j) (countToDisabled t), []) := by
  unfold State.pointEnabled at he
  cases hp : (s.engine.pointEntries.get l.action.target).entry with
  | none =>
    simp only [dispatchFrame, frameWork, hl, hd, hs, hp, Bool.false_eq_true, if_false]
    rfl
  | some e =>
    rw [hp] at he
    have he' : e.enable = false := he
    simp only [dispatchFrame, frameWork, hl, hd, hs, hp, he', Bool.false_eq_true, if_false]
    rfl

/-- The slot a summary names as the engine takes it (R133). -/
theorem frameWork_slot (hl : f.lookup = some l) : (frameWork f s).slot =
    if l.action.target.val < 8 then (s.engine.slotEntries.get (Fin.ofNat 8 l.action.target.val)).entry else none := by
  simp only [frameWork, hl]

theorem dispatchFrame_disabledSlot (hl : f.lookup = some l) (hd : l.action.disposition = .process)
    (hs : f.isSummary = true)
    (he : 8 ≤ l.action.target.val
      ∨ slotEnabled (s.engine.slotEntries.get (Fin.ofNat 8 l.action.target.val)).entry = false) :
    dispatchFrame (frameWork f s) (setJob (some j) t) = (setJob (some j) (countToDisabled t), []) := by
  have hslot : slotEnabled (frameWork f s).slot = false := by
    rw [frameWork_slot hl]
    split
    next h8 => exact he.resolve_left (by omega)
    next => rfl
  have hintake : intakeStage (frameWork f s) l (setJob (some j) t) = setJob (some j) (countToDisabled t) := by
    cases hx : (frameWork f s).slot with
    | none =>
      simp only [intakeStage, hd, hx]
      rfl
    | some e =>
      rw [hx] at hslot
      have he' : e.enable = false := hslot
      simp only [intakeStage, hd, hx, he', Bool.false_eq_true, if_false]
      rfl
  have hw : (frameWork f s).item = f := rfl
  simp [dispatchFrame, hw, hl, hd, hs, hintake, relayStage, Disposition.relays]

end Dispatch

theorem exec_takeFrameItem {f : FrameItem} {rest : List WorkItem} {s : State} (h : FrameInFront f rest s) :
    exec .takeFrameItem s = .next (takeFrame f rest s) := by
  show execTakeFrameItem s = _
  simp only [execTakeFrameItem, h.1, h.2]

/-- An item in front, with room for its capture, that ends at a dispatch which leaves the points: the engine is then free. -/
theorem exec_takeFrameItem_ends {f : FrameItem} {rest : List WorkItem} {s u : State} (h : FrameInFront f rest s)
    (hr : RoomFor (firstReports f s) s)
    (hd : dispatchFrame (frameWork f s) (setJob (some (frameJob f s)) (frameTaken f rest s)) =
      (setJob (some (frameJob f s)) u, []))
    (hp : u.engine.points = (frameTaken f rest s).engine.points)
    (hj : u.engine.job = (frameTaken f rest s).engine.job) : exec .takeFrameItem s = .next u := by
  rw [exec_takeFrameItem h, takeFrame_room hr, runStages_dispatched hd]
  · rw [hp, frameTaken_engine]
  · rw [hj, frameTaken_engine]
    exact h.1

/-! ### The capture and what it is asked for (R80, R81, R83) -/

theorem takesFirst_next {s : State} {l : LookupResult} (h : l.action.capture = .next) : takesFirst s l = true ↔
    (∃ key action, (s.cls.entries.get l.index).entry = some (.first key action))
      ∧ (s.cls.entries.get l.index).generation = l.generation ∧ s.cls.armed.get l.index = true := by
  simp only [takesFirst, h, Bool.and_eq_true, beq_iff_eq, and_assoc]
  refine and_congr_left fun _ => ?_
  split
  next key action he => simp [he]
  next he => simpa using he

theorem frameTaken_armed_captures {f : FrameItem} {l : LookupResult} {s : State} (hl : f.lookup = some l)
    (ht : takesFirst s l = true) (rest : List WorkItem) : (frameTaken f rest s).cls.armed =
      if l.action.capture = .next then upd s.cls.armed l.index false else s.cls.armed := by
  rw [frameTaken_captures hl ht, (reserve_reports _ _ _ _).cls]
  rfl

/-- The CAPTURE record of an item is reserved, and no other (R81). -/
theorem frameTaken_reported (f : FrameItem) (rest : List WorkItem) (s : State) :
    Reported (firstReports f s) s (frameTaken f rest s) := by
  have quiet (t : State) (ht : t.pub = s.pub) : Reported [] s t := by
    simp [Reported, ringAfter, ht]
  cases hl : f.lookup with
  | none =>
    rw [firstReports_unmatched hl]
    exact quiet _ (by rw [frameTaken_unmatched hl]; rfl)
  | some l =>
    cases ht : takesFirst s l with
    | false =>
      rw [firstReports_quiet hl ht]
      exact quiet _ (by rw [frameTaken_quiet hl ht]; rfl)
    | true =>
      rw [firstReports_captures hl ht rest, frameTaken_captures hl ht]
      exact reserve_reported _ _ _ (beforeCapture l rest s)

end Sys2Proof.Machine.SampleFrames
end

section
/-! The statement about the taking of a frame item. -/
namespace Sys2Proof.Machine.SampleFrames

/-- Settles O36: the item by its dispatch, its capture by the action's mode. -/
theorem frameItemDispatched : Obligations.FrameItemDispatched := by
  refine ⟨?dispatched, ?body, ?captures⟩
  case dispatched =>
    intro s f rest hf taken disabled
    have hdisabled : countToDisabled taken = disabled := by
      have he := congrArg EngineState.toDisabledPoint (frameTaken_engine f rest s)
      simp only [countToDisabled, disabled, taken, he]
    refine ⟨fun hl => ?_, fun hr l hl => ⟨fun hd => ?_, fun hs hd he => ?_, fun hs hd he => ?_⟩, fun hr => ?_⟩
    · have hr : RoomFor (firstReports f s) s := .inl (firstReports_unmatched hl)
      rw [exec_takeFrameItem_ends hf hr (dispatchFrame_unmatched _ _ hl) rfl rfl]
      have he := congrArg EngineState.unclassified (frameTaken_engine f rest s)
      simp only [taken, he]
    · exact exec_takeFrameItem_ends hf hr (dispatchFrame_passOnly _ _ hl hd) rfl rfl
    · rw [← hdisabled]
      exact exec_takeFrameItem_ends hf hr (dispatchFrame_disabledPoint _ _ hl hd hs he) rfl rfl
    · rw [← hdisabled]
      exact exec_takeFrameItem_ends hf hr (dispatchFrame_disabledSlot _ _ hl hd hs he) rfl rfl
    · exact ⟨{ frameJob f s with acts := [.await], stages := frameStages }, by
        rw [exec_takeFrameItem hf, takeFrame_no_room hr]
        rfl⟩
  case body =>
    intro f l hl target role tail
    have hz : putBit false 0 = 0#32 := rfl
    simp only [firstCaptureBody, captureFirstWord, hz, BitVec.zero_or]
    rfl
  case captures =>
    intro s f rest l hl taken entry may
    refine ⟨fun hc => ?_, fun hc hm => ?_, fun hc => ?_, frameTaken_reported f rest s⟩
    · have ht : takesFirst s l = true := by simp only [takesFirst, hc]
      exact ⟨by rw [firstReports_captures hl ht rest]; rfl,
        by rw [frameTaken_armed_captures hl ht rest, hc]; exact if_neg (by decide)⟩
    · have ht := (takesFirst_next hc).mpr hm
      exact ⟨by rw [firstReports_captures hl ht rest]; rfl,
        by rw [frameTaken_armed_captures hl ht rest, if_pos hc]⟩
    · have ht : takesFirst s l = false := by
        rcases hc with hc | ⟨hc, hm⟩
        · simp only [takesFirst, hc]
        · exact Bool.eq_false_iff.mpr (mt (takesFirst_next hc).mp hm)
      have hq : taken = _ := frameTaken_quiet (rest := rest) hl ht
      exact ⟨firstReports_quiet hl ht, by rw [hq], by rw [hq]; rfl, by rw [hq]; rfl⟩

end Sys2Proof.Machine.SampleFrames
end

section
/-! SUPPORT. A bus reset block by block: the marks of lost frames, the points, and the reports with their causes (R63, R131,
R132, R160, R190). -/
namespace Sys2Proof.Machine.SampleFrames

/-! ### Marks (R61, R116) -/

/-- A change that is made again changes nothing more: made for `b` and then for `c`, it is made once for either. -/
theorem ite_idempotent {α : Type} {f : α → α} (hf : ∀ x, f (f x) = f x) (a b c : Prop) [Decidable a] [Decidable b]
    [Decidable c] (x : α) : (if a ∧ c then f (if a ∧ b then f x else x) else if a ∧ b then f x else x) =
      if a ∧ (b ∨ c) then f x else x := by
  by_cases hb : a ∧ b
  · have hbc : a ∧ (b ∨ c) := ⟨hb.1, .inl hb.2⟩
    rw [if_pos hb, if_pos hbc, hf, ite_self]
  · have hbc : a ∧ (b ∨ c) ↔ a ∧ c := by tauto
    simp only [if_neg hb, hbc]

/-- A marked remote slot. -/
def markedSlot (x : RemoteSlot) : RemoteSlot := { x with allComplete := false }

/-- The engine `e'` is `e` with the enabled points and slots among these targets marked. -/
structure MarkedEngine (ts : List Target) (e e' : EngineState) : Prop where
  rest : ∃ points slots, e' = { e with points := points, slots := slots }
  points : ∀ p, e'.points.get p =
    if entryEnabled (e.pointEntries.get p).entry = true ∧ Target.point p ∈ ts then (e.points.get p).incomplete
    else e.points.get p
  slots : ∀ r, e'.slots.get r =
    if slotEnabled (e.slotEntries.get r).entry = true ∧ Target.slot r ∈ ts then markedSlot (e.slots.get r)
    else e.slots.get r

namespace MarkedEngine

theorem refl (e : EngineState) : MarkedEngine [] e e :=
  ⟨⟨e.points, e.slots, rfl⟩, fun _ => by simp, fun _ => by simp⟩

/-- A frame without a target marks nothing. -/
theorem untargeted (e : EngineState) : MarkedEngine [.none] e e :=
  ⟨⟨e.points, e.slots, rfl⟩, fun _ => by simp, fun _ => by simp⟩

theorem trans {ts us : List Target} {a b c : EngineState} (h : MarkedEngine ts a b) (k : MarkedEngine us b c) :
    MarkedEngine (ts ++ us) a c := by
  obtain ⟨points, slots, hb⟩ := h.rest
  obtain ⟨points', slots', hc⟩ := k.rest
  refine ⟨⟨points', slots', by rw [hc, hb]⟩, fun p => ?_, fun r => ?_⟩
  · have he : b.pointEntries = a.pointEntries := by rw [hb]
    rw [k.points, h.points, he, ite_idempotent (f := PointRecord.incomplete) fun _ => rfl]
    simp only [List.mem_append]
  · have he : b.slotEntries = a.slotEntries := by rw [hb]
    rw [k.slots, h.slots, he, ite_idempotent (f := markedSlot) fun _ => rfl]
    simp only [List.mem_append]

/-- Marks do not look at the count of dropped frames. -/
theorem withDropped {ts : List Target} {e e' : EngineState} (h : MarkedEngine ts e e') (d : Word) :
    MarkedEngine ts { e with droppedByReset := d } { e' with droppedByReset := d } := by
  obtain ⟨points, slots, he⟩ := h.rest
  exact ⟨⟨points, slots, by rw [he]⟩, h.points, h.slots⟩

theorem dropped {ts : List Target} {e e' : EngineState} (h : MarkedEngine ts e e') :
    e'.droppedByReset = e.droppedByReset := by
  obtain ⟨points, slots, he⟩ := h.rest
  rw [he]

end MarkedEngine

theorem mark_marked (t : Target) (s : State) : MarkedEngine [t] s.engine (mark t s).engine := by
  cases t with
  | none => exact .untargeted _
  | point p =>
    by_cases hp : s.pointEnabled p = true
    · have hm : mark (.point p) s = spoilPoint p s := if_pos hp
      rw [hm]
      refine ⟨⟨_, _, rfl⟩, fun q => ?_, fun r => by simp [spoilPoint, setPoint]⟩
      simp only [spoilPoint, setPoint_points, upd_get, List.mem_singleton, Target.point.injEq]
      by_cases hq : q = p
      · subst hq
        rw [if_pos rfl, if_pos ⟨hp, rfl⟩]
      · simp [hq]
    · have hm : mark (.point p) s = s := if_neg hp
      rw [hm]
      refine ⟨⟨_, _, rfl⟩, fun q => (if_neg ?_).symm, fun r => by simp⟩
      rintro ⟨hq, hmem⟩
      obtain rfl := Target.point.inj (List.mem_singleton.mp hmem)
      exact hp hq
  | slot r =>
    by_cases hr : slotEnabled (s.engine.slotEntries.get r).entry = true
    · have hm : mark (.slot r) s = spoilSlot r s := if_pos hr
      rw [hm]
      refine ⟨⟨_, _, rfl⟩, fun p => by simp [spoilSlot, setSlot], fun q => ?_⟩
      simp only [spoilSlot, setSlot_slots, upd_get, List.mem_singleton, Target.slot.injEq]
      by_cases hq : q = r
      · subst hq
        rw [if_pos rfl, if_pos ⟨hr, rfl⟩, markedSlot]
      · simp [hq]
    · have hm : mark (.slot r) s = s := if_neg hr
      rw [hm]
      refine ⟨⟨_, _, rfl⟩, fun p => by simp, fun q => (if_neg ?_).symm⟩
      rintro ⟨hq, hmem⟩
      obtain rfl := Target.slot.inj (List.mem_singleton.mp hmem)
      exact hr hq

/-! ### The open frames are discarded (R63) -/

/-- The target of the frame that this master has open, if any. -/
def openTarget (s : State) (tag : Fin 8) : Target :=
  match s.asm.records.get tag with
  | none => .none
  | some f => targetOf (f.kind == kindSummary) f.lookup

theorem discardFrame_marked (s : State) (tag : Fin 8) :
    MarkedEngine [openTarget s tag] s.engine (discardFrame s tag).engine := by
  cases h : s.asm.records.get tag with
  | none => simpa only [openTarget, discardFrame, h] using MarkedEngine.untargeted s.engine
  | some f =>
    simpa only [openTarget, discardFrame, h, setAssembly_engine] using
      mark_marked (targetOf (f.kind == kindSummary) f.lookup) (setAssembly tag none s)

/-- The frame of another master stays open. -/
theorem openTarget_discardFrame (s : State) {tag other : Fin 8} (h : other ≠ tag) :
    openTarget (discardFrame s tag) other = openTarget s other := by
  have hr : (discardFrame s tag).asm.records.get other = s.asm.records.get other := by
    unfold discardFrame
    split
    · rfl
    · simp [h]
  simp only [openTarget, hr]

theorem foldl_discardFrame_marked (tags : List (Fin 8)) (hn : tags.Nodup) (s : State) :
    MarkedEngine (tags.map (openTarget s)) s.engine (tags.foldl discardFrame s).engine := by
  induction tags generalizing s with
  | nil => exact .refl _
  | cons tag rest ih =>
    obtain ⟨htag, hrest⟩ := List.nodup_cons.mp hn
    have hmap : rest.map (openTarget (discardFrame s tag)) = rest.map (openTarget s) :=
      List.map_congr_left fun other ho => openTarget_discardFrame s fun he => htag (he ▸ ho)
    have h := (discardFrame_marked s tag).trans (ih hrest (discardFrame s tag))
    rwa [hmap] at h

theorem slot_mem_openTargets (s : State) (r : Fin 8) : Target.slot r ∈ allTags.map (openTarget s) ↔
    ∃ m f, s.asm.records.get m = some f ∧ targetOf (f.kind == kindSummary) f.lookup = .slot r := by
  have hall : ∀ m : Fin 8, m ∈ allTags := by decide
  have key (m : Fin 8) : openTarget s m = .slot r ↔
      ∃ f, s.asm.records.get m = some f ∧ targetOf (f.kind == kindSummary) f.lookup = .slot r := by
    cases h : s.asm.records.get m <;> simp [openTarget, h]
  simp only [List.mem_map, hall, true_and, key]

/-! ### The work queue is emptied (R131) -/

/-- The target of a frame in the work queue. -/
def itemTarget (it : WorkItem) : Target :=
  match it with
  | .frame f => targetOf f.isSummary f.lookup
  | .command _ | .marker => .none

theorem dropItem_marked (s : State) (it : WorkItem) : MarkedEngine [itemTarget it]
    { s.engine with droppedByReset := s.engine.droppedByReset + BitVec.ofNat 32 (if isFrame it = true then 1 else 0) }
    (dropItem s it).engine := by
  cases it with
  | frame f =>
    let counted : State := { s with engine := { s.engine with droppedByReset := s.engine.droppedByReset + 1 } }
    exact mark_marked (targetOf f.isSummary f.lookup) counted
  | command c => simpa [isFrame, itemTarget, dropItem] using MarkedEngine.untargeted s.engine
  | marker => simpa [isFrame, itemTarget, dropItem] using MarkedEngine.untargeted s.engine

theorem foldl_dropItem_marked (queue : List WorkItem) (s : State) : MarkedEngine (queue.map itemTarget)
    { s.engine with droppedByReset := s.engine.droppedByReset + BitVec.ofNat 32 (queue.countP isFrame) }
    (queue.foldl dropItem s).engine := by
  induction queue generalizing s with
  | nil => simpa using MarkedEngine.refl s.engine
  | cons it rest ih =>
    have h1 := dropItem_marked s it
    have h := (h1.withDropped _).trans (ih (dropItem s it))
    have hcount : s.engine.droppedByReset + BitVec.ofNat 32 (if isFrame it = true then 1 else 0)
        + BitVec.ofNat 32 (rest.countP isFrame) =
          s.engine.droppedByReset + BitVec.ofNat 32 ((it :: rest).countP isFrame) := by
      rw [List.countP_cons, BitVec.add_assoc, ← BitVec.ofNat_add, Nat.add_comm]
    rw [h1.dropped, hcount] at h
    exact h

theorem slot_mem_itemTargets (queue : List WorkItem) (r : Fin 8) : Target.slot r ∈ queue.map itemTarget ↔
    ∃ f, WorkItem.frame f ∈ queue ∧ targetOf f.isSummary f.lookup = .slot r := by
  rw [List.mem_map]
  constructor
  · rintro ⟨it, hm, ht⟩
    cases it with
    | frame f => exact ⟨f, hm, ht⟩
    | command c => cases ht
    | marker => cases ht
  · rintro ⟨f, hm, ht⟩
    exact ⟨.frame f, hm, ht⟩

/-! ### The points (R132) -/

/-- The record of an enabled point after a bus reset. -/
def resetRecord (r : PointRecord) : PointRecord := { r with baseFlag := false }.incomplete

theorem resetPoint_engine (s : State) (p : Fin 16) : (resetPoint s p).engine =
    { s.engine with points :=
        if s.pointEnabled p then upd s.engine.points p (resetRecord (s.engine.points.get p)) else s.engine.points } := by
  unfold resetPoint
  split
  next hp =>
    have hm : mark (.point p) (modifyPoint p (fun r => { r with baseFlag := false }) s) =
        spoilPoint p (modifyPoint p (fun r => { r with baseFlag := false }) s) := if_pos hp
    rw [hm]
    simp only [spoilPoint, modifyPoint, setPoint, upd_get, if_true, upd_upd, resetRecord]
  next => rfl

theorem resetPoint_points (s : State) (p q : Fin 16) : (resetPoint s q).engine.points.get p =
    if s.pointEnabled p = true ∧ p = q then resetRecord (s.engine.points.get p) else s.engine.points.get p := by
  rw [resetPoint_engine]
  by_cases hq : s.pointEnabled q = true
  · simp only [hq, if_true, upd_get]
    by_cases hpq : p = q
    · subst hpq
      rw [if_pos rfl, if_pos ⟨hq, rfl⟩]
    · rw [if_neg hpq, if_neg fun h => hpq h.2]
  · rw [if_neg hq, if_neg]
    rintro ⟨hp, rfl⟩
    exact hq hp

theorem foldl_resetPoint (ps : List (Fin 16)) (s : State) : ∃ points : Vector PointRecord 16,
    (ps.foldl resetPoint s).engine = { s.engine with points := points }
      ∧ ∀ p, points.get p = if s.pointEnabled p = true ∧ p ∈ ps then resetRecord (s.engine.points.get p)
          else s.engine.points.get p := by
  induction ps generalizing s with
  | nil => exact ⟨s.engine.points, rfl, fun p => by simp⟩
  | cons q rest ih =>
    obtain ⟨points, he, hp⟩ := ih (resetPoint s q)
    have hq := resetPoint_engine s q
    refine ⟨points, by rw [List.foldl_cons, he, hq], fun p => ?_⟩
    have hen : (resetPoint s q).pointEnabled p = s.pointEnabled p := by simp only [State.pointEnabled, hq]
    rw [hp, hen, resetPoint_points, ite_idempotent (f := resetRecord) fun _ => rfl]
    simp only [List.mem_cons]

/-! ### What the marks and the points leave -/

/-- `t` is `s` but for the Frame Assembler and the engine. -/
def FramesFrom (s t : State) : Prop := t = { s with asm := t.asm, engine := t.engine }

theorem FramesFrom.trans {a b c : State} (h : FramesFrom a b) (k : FramesFrom b c) : FramesFrom a c := by
  unfold FramesFrom at *
  rw [k, h]

theorem mark_framesFrom (t : Target) (s : State) : FramesFrom s (mark t s) := by
  unfold mark
  repeat' split
  all_goals rfl

theorem discardFrame_framesFrom (s : State) (tag : Fin 8) : FramesFrom s (discardFrame s tag) := by
  unfold discardFrame
  split
  · rfl
  · exact FramesFrom.trans (b := setAssembly tag none s) rfl (mark_framesFrom _ _)

theorem dropItem_framesFrom (s : State) (it : WorkItem) : FramesFrom s (dropItem s it) := by
  cases it with
  | frame f =>
    exact FramesFrom.trans
      (b := { s with engine := { s.engine with droppedByReset := s.engine.droppedByReset + 1 } }) rfl
      (mark_framesFrom _ _)
  | command c => rfl
  | marker => rfl

theorem resetPoint_framesFrom (s : State) (p : Fin 16) : FramesFrom s (resetPoint s p) := by
  unfold resetPoint
  split
  · exact FramesFrom.trans (b := modifyPoint p _ s) rfl (mark_framesFrom _ _)
  · rfl

theorem foldl_framesFrom {α : Type} (f : State → α → State) (hf : ∀ s x, FramesFrom s (f s x)) (l : List α) (s : State) :
    FramesFrom s (l.foldl f s) :=
  List.foldlRecOn l f (motive := FramesFrom s) rfl fun _ h x _ => h.trans (hf _ x)

/-- The state of a bus reset after the frames are lost and the points reset. -/
def framesReset (s : State) : State :=
  allPoints.foldl resetPoint (resetWorkQueue (allTags.foldl discardFrame (resetPath s)))

theorem framesReset_framesFrom (s : State) : FramesFrom (resetPath s) (framesReset s) := by
  have hq (s : State) : FramesFrom s (resetWorkQueue s) :=
    (foldl_framesFrom dropItem dropItem_framesFrom s.engine.workQueue s).trans rfl
  exact ((foldl_framesFrom _ discardFrame_framesFrom _ _).trans (hq _)).trans
    (foldl_framesFrom _ resetPoint_framesFrom _ _)

/-- The engine after the frames are lost and the points reset. -/
theorem framesReset_engine (s : State) : ∃ points slots,
    (framesReset s).engine = { s.engine with
      workQueue := s.engine.workQueue.filter isMarker
      droppedByReset := s.engine.droppedByReset + BitVec.ofNat 32 (s.engine.workQueue.countP isFrame)
      points := points
      slots := slots }
    ∧ (∀ p, points.get p =
        if s.pointEnabled p then resetRecord (s.engine.points.get p) else s.engine.points.get p)
    ∧ ∀ r, slots.get r =
        if slotEnabled (s.engine.slotEntries.get r).entry = true
            ∧ Target.slot r ∈ allTags.map (openTarget s) ++ s.engine.workQueue.map itemTarget then
          markedSlot (s.engine.slots.get r)
        else s.engine.slots.get r := by
  have hopen := foldl_discardFrame_marked allTags (by decide) (resetPath s)
  generalize hu : allTags.foldl discardFrame (resetPath s) = u at hopen
  have hqueue : u.engine.workQueue = s.engine.workQueue := by
    obtain ⟨_, _, he⟩ := hopen.rest
    rw [he]
    rfl
  have hmarks := (hopen.withDropped _).trans (foldl_dropItem_marked u.engine.workQueue u)
  rw [hopen.dropped, hqueue] at hmarks
  obtain ⟨points, slots, he⟩ := hmarks.rest
  have hfilter : (fun it => it == WorkItem.marker) = isMarker := by
    funext it
    cases it <;> rfl
  have hw : (resetWorkQueue u).engine =
      { (s.engine.workQueue.foldl dropItem u).engine with workQueue := s.engine.workQueue.filter isMarker } := by
    unfold resetWorkQueue
    rw [hqueue, hfilter]
  obtain ⟨points', he', hp⟩ := foldl_resetPoint allPoints (resetWorkQueue u)
  have hall : ∀ p : Fin 16, p ∈ allPoints := by decide
  refine ⟨points', slots, ?_, fun p => ?_, fun r => ?_⟩
  · rw [framesReset, hu, he', hw, he]
    rfl
  · have hen : (resetWorkQueue u).pointEnabled p = s.pointEnabled p := by
      simp only [State.pointEnabled, hw, he]
      rfl
    have hpoints : (resetWorkQueue u).engine.points = (s.engine.workQueue.foldl dropItem u).engine.points := by rw [hw]
    rw [hp, hen, hpoints, hmarks.points p]
    by_cases hs : s.pointEnabled p = true
    · rw [if_pos ⟨hs, hall p⟩, if_pos hs]
      split <;> rfl
    · rw [if_neg fun h => hs h.1, if_neg hs]
      exact if_neg fun h => hs h.1
  · have hslot := hmarks.slots r
    rw [he] at hslot
    exact hslot

/-! ### The Publisher is emptied (R178, R179) -/

/-- `t` is `s` but for the Publisher. -/
def PublisherFrom (s t : State) : Prop := t = { s with pub := t.pub }

theorem oweStatus_publisherFrom (slot : Fin 8) (word : Word) (s : State) : PublisherFrom s (oweStatus slot word s) := by
  unfold oweStatus
  split <;> rfl

theorem resetPublisher_publisherFrom (s : State) : PublisherFrom s (resetPublisher s) := by
  have hf : PublisherFrom s (s.pub.queue.foldl oweDropped s) := by
    refine List.foldlRecOn _ _ (motive := PublisherFrom s) rfl fun t h it _ => ?_
    have ht : PublisherFrom t (oweDropped t it) := by
      cases it with
      | status slot word => exact oweStatus_publisherFrom slot word t
      | _ => rfl
    unfold PublisherFrom at *
    rw [ht, h]
  unfold resetPublisher PublisherFrom at *
  rw [hf]

/-! ### The reports of a reset (R160, R175, R190) -/

theorem requestPublication_engine (r : Fin 28) (s : State) : (requestPublication r s).engine = s.engine := by
  unfold requestPublication
  dsimp only
  split
  · split <;> rfl
  · rfl
  · rfl

/-- A reservation frees no entry. -/
theorem reserve_occupied_le (by_ : Requester) (kind : DigestKind) (body : List Word) (s : State) :
    s.pub.digest.occupied.length ≤ (reserve by_ kind body s).pub.digest.occupied.length := by
  rw [(reserve_reported by_ kind body s).1]
  simp only [ringAfter]
  split <;> simp

/-- The cause DIGEST after these reports: the ring is at its threshold (R171). -/
def digestCause (s : State) (occupied : Nat) : BitVec 6 :=
  if s.inEffect.threshold ≤ occupied then Cause.digest.mask &&& s.inEffect.causeEnable else 0

/-- `t` comes from `s` by reservations alone: the reports they make, the engine as it was, and DIGEST pending when the ring is
then at its threshold. -/
structure ReservedFrom (s t : State) : Prop where
  reports : ReportsFrom s t
  engine : t.engine = s.engine
  occupied : s.pub.digest.occupied.length ≤ t.pub.digest.occupied.length
  irq : t.irq = s.irq ||| digestCause s t.pub.digest.occupied.length

theorem reserve_reservedFrom (by_ : Requester) (kind : DigestKind) (body : List Word) (s : State) :
    ReservedFrom s (reserve by_ kind body s) :=
  ⟨reserve_reports _ _ _ _, reserve_engine _ _ _ _, reserve_occupied_le _ _ _ _, reserve_irq _ _ _ _⟩

/-- A second reservation finds at least as many entries occupied, so the first one's cause is also the second's. -/
theorem ReservedFrom.trans {a b c : State} (h : ReservedFrom a b) (k : ReservedFrom b c) : ReservedFrom a c := by
  have he : b.inEffect = a.inEffect := by simp only [State.inEffect, h.reports.settings]
  have hle := k.occupied
  refine ⟨h.reports.trans k.reports, k.engine.trans h.engine, h.occupied.trans hle, ?_⟩
  rw [k.irq, h.irq, BitVec.or_assoc]
  congr 1
  unfold digestCause
  rw [he]
  by_cases hb : a.inEffect.threshold ≤ b.pub.digest.occupied.length
  · rw [if_pos hb, if_pos (hb.trans hle), BitVec.or_self]
  · rw [if_neg hb]
    exact BitVec.zero_or

/-- The record of the run after a bus reset (R160). -/
def provingReset (s : State) : ProvingState :=
  if provingInProgress s then abortRun .reset s.proving else s.proving

/-- What a bus reset reports: RESTART, and the end of a run in progress (R160). -/
theorem reportReset_spec (provingFirst : Bool) (returned torn : Nat) (s : State) :
    let t := reportReset provingFirst returned torn s
    ReportsFrom { s with proving := provingReset s } t ∧ t.engine = s.engine
      ∧ t.irq = s.irq ||| digestCause s t.pub.digest.occupied.length
          ||| (if provingInProgress s then Cause.proving.mask &&& s.inEffect.causeEnable else 0) := by
  intro t
  by_cases hp : provingInProgress s = true
  · let aborted := setProving (abortRun .reset s.proving) s
    have hr : ReservedFrom aborted (if provingFirst then reserveRestart returned torn (reserveProving aborted)
        else reserveProving (reserveRestart returned torn aborted)) := by
      split
      · exact (reserve_reservedFrom _ _ _ _).trans (reserve_reservedFrom _ _ _ _)
      · exact (reserve_reservedFrom _ _ _ _).trans (reserve_reservedFrom _ _ _ _)
    have ht : t = raiseCause .proving (requestPublication provingRecordNo
        (if provingFirst then reserveRestart returned torn (reserveProving aborted)
          else reserveProving (reserveRestart returned torn aborted))) := if_pos hp
    generalize (if provingFirst then reserveRestart returned torn (reserveProving aborted)
        else reserveProving (reserveRestart returned torn aborted)) = u at hr ht
    have hq := requestPublication_reports provingRecordNo u
    obtain ⟨hd, -, -, hi, -, -⟩ := requestPublication_pub provingRecordNo u
    have he : (requestPublication provingRecordNo u).inEffect = s.inEffect := by
      simp only [State.inEffect, hq.settings, hr.reports.settings]
      rfl
    rw [ht, provingReset, if_pos hp, if_pos hp]
    refine ⟨(hr.reports.trans hq).trans (raiseCause_reports _ _), ?_, ?_⟩
    · rw [raiseCause_engine, requestPublication_engine, hr.engine]
      rfl
    · rw [raiseCause_irq, raiseCause_pub, he, hi, hd, hr.irq]
      rfl
  · have ht : t = reserveRestart returned torn s := if_neg hp
    have hr : ReservedFrom s (reserveRestart returned torn s) := reserve_reservedFrom _ _ _ _
    rw [ht, provingReset, if_neg hp, if_neg hp]
    exact ⟨hr.reports, hr.engine, hr.irq.trans BitVec.or_zero.symm⟩

/-! ### The lost commands (R131, R186) -/

/-- Only the queue, the owed statuses and the yield indication change. -/
structure StatusesFrom (s t : State) : Prop where
  reports : ReportsFrom s t
  engine : t.engine = s.engine
  irq : t.irq = s.irq
  digest : t.pub.digest = s.pub.digest

theorem lostCommand_statusesFrom (s : State) (it : WorkItem) : StatusesFrom s (lostCommand s it) := by
  cases it with
  | command c =>
    simp only [lostCommand]
    split
    · exact ⟨joinQueue_reports _ _, rfl, rfl, rfl⟩
    · unfold oweStatus
      split
      · exact ⟨ReportsFrom.refl s, rfl, rfl, rfl⟩
      · exact ⟨by constructor <;> rfl, rfl, rfl, rfl⟩
  | frame f => exact ⟨ReportsFrom.refl s, rfl, rfl, rfl⟩
  | marker => exact ⟨ReportsFrom.refl s, rfl, rfl, rfl⟩

theorem foldl_lostCommand_statusesFrom (queue : List WorkItem) (s : State) :
    StatusesFrom s (queue.foldl lostCommand s) := by
  refine List.foldlRecOn _ _ (motive := StatusesFrom s) ⟨ReportsFrom.refl s, rfl, rfl, rfl⟩ fun t h it _ => ?_
  have k := lostCommand_statusesFrom t it
  exact ⟨h.reports.trans k.reports, k.engine.trans h.engine, k.irq.trans h.irq, k.digest.trans h.digest⟩

end Sys2Proof.Machine.SampleFrames
end

section
/-! The statement about the records of a bus reset. -/
namespace Sys2Proof.Machine.SampleFrames

/-- The state in which a bus reset reports is the state before but for the path, the granted place, the frames, the engine and
the Publisher. -/
theorem emptied_eq (s : State) : ∃ pub, resetDigest (resetPublisher (framesReset s)) =
    { resetPath s with asm := (framesReset s).asm, engine := (framesReset s).engine, pub := pub } := by
  obtain ⟨pub, hp⟩ : ∃ pub, resetPublisher (framesReset s) = { framesReset s with pub := pub } :=
    ⟨_, resetPublisher_publisherFrom (framesReset s)⟩
  obtain ⟨asm, engine, hf⟩ : ∃ asm engine, framesReset s = { resetPath s with asm := asm, engine := engine } :=
    ⟨_, _, framesReset_framesFrom s⟩
  rw [resetDigest, hp, hf]
  exact ⟨_, rfl⟩

/-- The pending causes of a reset's reports. -/
theorem resetCauses_eq (s t : State) : resetCauses s t = digestCause s t.pub.digest.occupied.length
    ||| (if provingInProgress s then Cause.proving.mask &&& s.inEffect.causeEnable else 0) := by
  unfold resetCauses digestCause
  split <;> split <;> simp [BitVec.and_or_distrib_right]

/-- Settles O4: the frames and points before the reports, which leave the engine, and the causes of the reports alone. -/
theorem busResetRecords : Obligations.BusResetRecords := by
  intro provingFirst s hj
  obtain ⟨pub, hu⟩ := emptied_eq s
  obtain ⟨points, slots, he, hpoints, hslots⟩ := framesReset_engine s
  have hreset : busReset provingFirst s = resetEngine (s.engine.workQueue.foldl lostCommand
      (reportReset provingFirst (reservedEntries s.pub.digest).length (tornByReset s)
        (resetDigest (resetPublisher (framesReset s))))) := rfl
  generalize resetDigest (resetPublisher (framesReset s)) = u at hu hreset
  have hrun : provingInProgress u = provingInProgress s := by rw [hu]; rfl
  have hproving : provingReset u = provingReset s := by rw [hu]; rfl
  have hin : u.inEffect = s.inEffect := by rw [hu]; rfl
  obtain ⟨hreports, hengine, hirq⟩ :=
    reportReset_spec provingFirst (reservedEntries s.pub.digest).length (tornByReset s) u
  generalize reportReset provingFirst (reservedEntries s.pub.digest).length (tornByReset s) u = v at *
  obtain ⟨kreports, kengine, kirq, kdigest⟩ := foldl_lostCommand_statusesFrom s.engine.workQueue v
  generalize s.engine.workQueue.foldl lostCommand v = w at *
  have hw := hreports.trans kreports
  have hwe : w.engine = { s.engine with
      workQueue := s.engine.workQueue.filter isMarker
      droppedByReset := s.engine.droppedByReset + BitVec.ofNat 32 (s.engine.workQueue.countP isFrame)
      points := points
      slots := slots } := by
    rw [kengine, hengine, hu, he]
  have hend : busReset provingFirst s = { w with engine := { w.engine with reload := none } } := by
    rw [hreset]
    unfold resetEngine
    rw [hwe]
    simp only [hj]
  refine ⟨_, congrArg Host.Outcome.next hend, by rw [hwe], fun p => ?_, fun r => ?_, ?_, ?_, ?_, ?_, ?_⟩
  · rw [hwe]
    exact hpoints p
  · have hlost := (List.mem_append (a := Target.slot r)).trans
      (or_congr (slot_mem_openTargets s r) (slot_mem_itemTargets s.engine.workQueue r))
    rw [hwe]
    exact ⟨fun h => (hslots r).trans (if_pos ⟨h.1, hlost.mpr h.2⟩),
      fun h => (hslots r).trans (if_neg fun hm => h ⟨hm.1, hlost.mp hm.2⟩)⟩
  · exact hw.cls.trans (by rw [hu]; rfl)
  · exact hw.arith.trans (by rw [hu]; rfl)
  · exact hw.balance.trans (by rw [hu]; rfl)
  · have hzero : u.irq = 0 := by rw [hu]; rfl
    have hcause : digestCause u v.pub.digest.occupied.length = digestCause s v.pub.digest.occupied.length := by
      unfold digestCause
      rw [hin]
    rw [resetCauses_eq, kdigest, kirq, hirq, hzero, hcause, hrun, hin]
    exact congrArg (· ||| _) BitVec.zero_or
  · exact hw.proving.trans hproving

end Sys2Proof.Machine.SampleFrames
end

section
/-! SUPPORT. Reports behind one another: what was reported stands, and an abandonment is offered to the arithmetic fault
record (R106, R164, R171). -/
namespace Sys2Proof.Machine.Classification
open Sys2Proof.Machine.SampleFrames

/-! ### What a reservation and a publication request do to the Publisher -/

/-- The DIGEST item of a record kept joins the queue or is held back for its requester (R164, R171). -/
theorem reserve_kept_item (by_ : Requester) (kind : DigestKind) (body : List Word) {s : State}
    (h : s.pub.digest.sizePending = false ∧ s.pub.digest.occupied.length < s.inEffect.ringSize) :
    let position := (s.pub.digest.oldest + s.pub.digest.occupied.length) % s.inEffect.ringSize
    let words := digestWords (digestHead kind s.pub.digest.lost s.pub.digest.nextSequence) body (releaseWord s)
    OwnItem.digest position words ∈ (reserve by_ kind body s).pub.queue
      ∨ ⟨position, words, by_ == .engine⟩ ∈ (reserve by_ kind body s).pub.heldDigests := by
  have hcan : canReserve s = true := by simpa [canReserve] using h
  simp only [reserve, hcan, if_true, checkThreshold_pub, offerDigest]
  split
  · exact .inl (List.mem_append_right _ List.mem_cons_self)
  · exact .inr (List.mem_append_right _ List.mem_cons_self)

/-- What a reservation does to the queue, the items held back and the rest of the Publisher. -/
theorem reserve_pub_cases (by_ : Requester) (kind : DigestKind) (body : List Word) (s : State) :
    let t := reserve by_ kind body s
    t.pub.outboundIndex = s.pub.outboundIndex ∧ t.pub.records = s.pub.records
      ∧ ((∃ position words, t.pub.queue = s.pub.queue ++ [.digest position words] ∧ t.pub.heldDigests = s.pub.heldDigests)
        ∨ t.pub.queue = s.pub.queue ∧ ∃ held : List HeldDigest, t.pub.heldDigests = s.pub.heldDigests ++ held
          ∧ ∀ x ∈ held, x.byEngine = (by_ == .engine)) := by
  simp only [reserve]
  split
  · simp only [checkThreshold_pub, offerDigest]
    split
    · exact ⟨rfl, rfl, .inl ⟨_, _, rfl, rfl⟩⟩
    · exact ⟨rfl, rfl, .inr ⟨rfl, _, rfl, by simp⟩⟩
  · simp only [checkThreshold_pub]
    exact ⟨rfl, rfl, .inr ⟨rfl, [], (List.append_nil _).symm, by simp⟩⟩

/-- A record that another requester asks for is not held back for the engine. -/
theorem reserve_other_holds (kind : DigestKind) (body : List Word) (s : State) :
    (reserve .other kind body s).pub.heldDigests.any (·.byEngine) = s.pub.heldDigests.any (·.byEngine) := by
  obtain ⟨-, -, ⟨_, _, -, hheld⟩ | ⟨-, held, hheld, hby⟩⟩ := reserve_pub_cases .other kind body s
  · rw [hheld]
  · have hnone : held.any (·.byEngine) = false := List.any_eq_false.mpr fun x hx => by simp [hby x hx]
    rw [hheld, List.any_append, hnone, Bool.or_false]

theorem reserve_queue_length_le (by_ : Requester) (kind : DigestKind) (body : List Word) (s : State) :
    (reserve by_ kind body s).pub.queue.length ≤ s.pub.queue.length + 1 := by
  obtain ⟨-, -, ⟨_, _, hq, -⟩ | ⟨hq, -⟩⟩ := reserve_pub_cases by_ kind body s <;> simp [hq]

theorem length_replaceContent (r : Fin 28) (content : List Word) (begun : Bool) (queue : List OwnItem) :
    (replaceContent r content begun queue).length = queue.length := by
  cases begun <;> cases queue <;> simp [replaceContent]

theorem requestPublication_queue_length_le (r : Fin 28) (s : State) :
    (requestPublication r s).pub.queue.length ≤ s.pub.queue.length + 1 := by
  unfold requestPublication
  dsimp only
  split
  · split <;> simp
  · simp [length_replaceContent]
  · exact Nat.le_succ _

theorem requestPublication_outboundIndex (r : Fin 28) (s : State) :
    (requestPublication r s).pub.outboundIndex = s.pub.outboundIndex := by
  unfold requestPublication
  dsimp only
  split
  · split <;> rfl
  · rfl
  · rfl

/-- A publication request takes back no other. -/
theorem requestPublication_keeps_asked {r q : Fin 28} {s : State} (h : Asked q s) : Asked q (requestPublication r s) := by
  unfold requestPublication Asked at *
  dsimp only
  split
  · split <;> simp only [setRecord_records, joinQueue_records, upd_get] <;> split <;> simp_all
  · exact h
  · exact h

/-- A record's content does not show what the engine has in hand. -/
theorem requestPublication_setJob (r : Fin 28) (j : Option Job) (s : State) :
    requestPublication r (setJob j s) = setJob j (requestPublication r s) := by
  have hc : recordContent (setJob j s) r = recordContent s r := rfl
  have hr : hasRoom (setJob j s) = hasRoom s := rfl
  unfold requestPublication
  rw [hc, hr, setJob_pub]
  dsimp only
  split
  · split <;> rfl
  · rfl
  · rfl

/-! ### What was reported stands -/

/-- What was reported in `s` stands in `t`: the DIGEST items queued and held back, the requests and the causes. -/
structure Stands (s t : State) : Prop where
  queued : ∀ position words, OwnItem.digest position words ∈ s.pub.queue → OwnItem.digest position words ∈ t.pub.queue
  held : ∀ x ∈ s.pub.heldDigests, x ∈ t.pub.heldDigests
  asked : ∀ r, Asked r s → Asked r t
  irq : ∀ i, s.irq.getLsbD i = true → t.irq.getLsbD i = true

theorem Stands.of_eq {s t : State} (hp : t.pub = s.pub) (hi : t.irq = s.irq) : Stands s t :=
  ⟨fun _ _ h => hp ▸ h, fun _ h => hp ▸ h, fun _ h => by rwa [Asked, hp], fun _ h => hi ▸ h⟩

theorem Stands.refl (s : State) : Stands s s := .of_eq rfl rfl

theorem Stands.trans {a b c : State} (h : Stands a b) (k : Stands b c) : Stands a c :=
  ⟨fun p w x => k.queued p w (h.queued p w x), fun x hx => k.held x (h.held x hx), fun r hr => k.asked r (h.asked r hr),
    fun i hi => k.irq i (h.irq i hi)⟩

theorem raiseCause_stands (c : Cause) (s : State) : Stands s (raiseCause c s) :=
  ⟨fun _ _ h => h, fun _ h => h, fun _ h => h, fun i h => by simp [h]⟩

theorem reserve_stands (by_ : Requester) (kind : DigestKind) (body : List Word) (s : State) :
    Stands s (reserve by_ kind body s) := by
  obtain ⟨-, hrecords, hcases⟩ := reserve_pub_cases by_ kind body s
  refine ⟨fun position words h => ?_, fun x h => ?_, fun r h => by rwa [Asked, hrecords], fun i h => ?_⟩
  · obtain ⟨_, _, hq, -⟩ | ⟨hq, -⟩ := hcases
    · exact hq ▸ List.mem_append_left _ h
    · exact hq ▸ h
  · obtain ⟨_, _, -, hheld⟩ | ⟨-, _, hheld, -⟩ := hcases
    · exact hheld ▸ h
    · exact hheld ▸ List.mem_append_left _ h
  · simp [reserve_irq, h]

theorem requestPublication_stands (r : Fin 28) (s : State) : Stands s (requestPublication r s) := by
  obtain ⟨-, -, hheld, hirq, -, hqueue⟩ := requestPublication_pub r s
  exact ⟨hqueue, fun _ h => hheld ▸ h, fun _ h => requestPublication_keeps_asked h, fun _ h => hirq ▸ h⟩

theorem reported_nil {s t : State} (hd : t.pub.digest = s.pub.digest) (hl : t.pub.digestLost = s.pub.digestLost) :
    Reported [] s t :=
  ⟨hd, hl.trans (BitVec.add_zero _).symm, fun _ _ hx => absurd hx List.not_mem_nil⟩

/-- Records reserved behind others (R171). -/
theorem reported_append {a b : List Report} {s t u : State} (h : Reported a s t) (k : Reported b t u) (hs : Stands t u)
    (he : t.inEffect = s.inEffect) : Reported (a ++ b) s u := by
  obtain ⟨hring, hlost, hitems⟩ := h
  obtain ⟨kring, klost, kitems⟩ := k
  rw [hring, he] at kring klost kitems
  unfold Reported
  rw [ringAfter_append]
  refine ⟨kring, ?_, fun position words hx => ?_⟩
  · rw [klost, hlost, BitVec.add_assoc, ← BitVec.ofNat_add]
  · obtain hx | hx := List.mem_append.mp hx
    · exact (hitems position words hx).imp (hs.queued position words) fun ⟨byEngine, hb⟩ => ⟨byEngine, hs.held _ hb⟩
    · exact kitems position words hx

/-! ### An abandonment offered to the arithmetic fault record (R106) -/

/-- The body of an arithmetic FAULT record, field by field. -/
theorem arithFault_body (target : BitVec 4) (role : Role) (f : FrameItem) (step : ArithStep) (kinds : Kinds) :
    faultBody true (ArithFault.words ⟨target, role, headChannel f.head, headSequence f.head, f.raw, step, kinds, 0⟩) =
      arithFaultBody target role f step kinds := by
  have ht := target.isLt
  have hr : role.code ≤ 3 := by cases role <;> decide
  have hc := (headChannel f.head).isLt
  have hq := (headSequence f.head).isLt
  simp only [faultBody, ArithFault.words, arithFaultBody]
  rw [packed_cons _ _ _ 4 (by omega) (by simp), packed_cons _ _ _ 8 (by omega) (by simp),
    packed_cons _ _ _ 16 (by omega) (by simp), packed_cons _ _ _ 24 (by omega) (by simp), ← put_eq_packed]
  simp only [BitVec.or_assoc]
  rfl

/-- The arithmetic fault record as it is then. -/
theorem reportsFrom_arithFault {s t : State} {x : Option ArithFault}
    (h : ReportsFrom { s with arith := { s.arith with fault := x } } t) :
    ReportsFrom { s with arith := { s.arith with fault := t.arith.fault } } t := by
  have hx : t.arith.fault = x := by rw [h.arith]
  rwa [hx]

section Offer

variable (target : BitVec 4) (role : Role) (f : FrameItem) (step : ArithStep) (kinds : Kinds) (s : State)

/-- The abandonment changes the arithmetic fault record, and nothing else but reports. -/
theorem offerArithFault_reports : let t := offerArithFault target role f step kinds s
    ReportsFrom { s with arith := { s.arith with fault := t.arith.fault } } t := by
  intro t
  unfold t offerArithFault
  split
  · exact reportsFrom_arithFault
      (((raiseCause_reports _ _).trans (reserve_reports _ _ _ _)).trans (requestPublication_reports _ _))
  next x h =>
    split
    · exact ReportsFrom.refl s
    · exact reportsFrom_arithFault (requestPublication_reports _ _)

theorem offerArithFault_setJob (j : Option Job) : offerArithFault target role f step kinds (setJob j s) =
    setJob j (offerArithFault target role f step kinds s) := by
  unfold offerArithFault
  show (match s.arith.fault with | none => _ | some x => _) = _
  cases s.arith.fault with
  | none =>
    dsimp only
    rw [← requestPublication_setJob, ← reserve_setJob]
    rfl
  | some x =>
    dsimp only
    split
    · rfl
    · rw [← requestPublication_setJob]
      rfl

/-- What an abandonment leaves of the queue and the engine: it holds nothing back for the engine, and takes two places at
most. -/
theorem offerArithFault_frame : let t := offerArithFault target role f step kinds s
    t.engine = s.engine ∧ t.pub.outboundIndex = s.pub.outboundIndex
      ∧ t.pub.heldDigests.any (·.byEngine) = s.pub.heldDigests.any (·.byEngine)
      ∧ t.pub.queue.length ≤ s.pub.queue.length + 2 := by
  intro t
  unfold t offerArithFault
  split
  · dsimp only
    generalize hu : raiseCause .fault _ = u
    have hup : u.pub = s.pub := by rw [← hu]; rfl
    have hue : u.engine = s.engine := by rw [← hu]; rfl
    refine ⟨?_, ?_, ?_, ?_⟩
    · rw [requestPublication_engine, reserve_engine, hue]
    · rw [requestPublication_outboundIndex, (reserve_pub_cases _ _ _ _).1, hup]
    · rw [(requestPublication_pub _ _).2.2.1, reserve_other_holds, hup]
    · refine (requestPublication_queue_length_le _ _).trans (Nat.succ_le_succ ?_)
      exact (reserve_queue_length_le _ _ _ u).trans (by rw [hup])
  next x h =>
    split
    · exact ⟨rfl, rfl, rfl, Nat.le_add_right _ _⟩
    · refine ⟨requestPublication_engine _ _, requestPublication_outboundIndex _ _, ?_, ?_⟩
      · rw [(requestPublication_pub _ _).2.2.1]
      · exact (requestPublication_queue_length_le _ _).trans (Nat.le_succ _)

/-- The record takes the abandonment as R106 gives it, and reports it. -/
theorem offerArithFault_offered :
    ArithFaultOffered target role f step kinds s (offerArithFault target role f step kinds s) := by
  unfold offerArithFault
  cases h : s.arith.fault with
  | none =>
    refine ⟨fun _ => ?_, fun x hx => absurd (h ▸ hx) (by simp)⟩
    dsimp only
    rw [arithFault_body]
    generalize hv : raiseCause .fault _ = v
    generalize hbody : arithFaultBody target role f step kinds = body
    have hpub : v.pub = s.pub := by rw [← hv]; rfl
    have hin : v.inEffect = s.inEffect := by rw [← hv]; rfl
    have hrel : releaseWord v = releaseWord s := by rw [← hv]; rfl
    have hirq : v.irq = s.irq ||| (1#6 &&& s.inEffect.causeEnable) := by rw [← hv]; rfl
    have hfault : v.arith.fault =
      some ⟨target, role, headChannel f.head, headSequence f.head, f.raw, step, kinds, 0⟩ := by rw [← hv]; rfl
    have hreports := (reserve_reports .other .fault body v).trans (requestPublication_reports arithFaultRecordNo _)
    obtain ⟨hring, hlost, hheld, -, hasked, hqueue⟩ :=
      requestPublication_pub arithFaultRecordNo (reserve .other .fault body v)
    have hstands := (reserve_stands .other .fault body v).trans (requestPublication_stands arithFaultRecordNo _)
    obtain ⟨kring, klost, -⟩ := reserve_reported .other .fault body v
    rw [hpub, hin] at kring klost
    refine ⟨by rw [hreports.arith, hfault], hasked, fun he => hstands.irq 0 (by simp [hirq, he]),
      fun hk => ⟨?_, [], ?_, by simp⟩, fun hk => ⟨?_, 0, by simp, ?_⟩⟩
    · have hk' : v.pub.digest.sizePending = false ∧ v.pub.digest.occupied.length < v.inEffect.ringSize := by
        rwa [hpub, hin]
      have hitem := reserve_kept_item .other .fault body hk'
      rw [hpub, hin, hrel] at hitem
      exact hitem.imp (hqueue _ _) (hheld ▸ ·)
    · rw [hring, kring, ringAfter, if_pos hk]
      rfl
    · rw [hring, kring, ringAfter, if_neg hk]
      rfl
    · rw [hlost, klost, ringAfter, if_neg hk]
      simp [ringAfter]
  | some x =>
    refine ⟨fun hn => absurd (h ▸ hn) (by simp), fun y hy => ?_⟩
    obtain rfl : x = y := Option.some.inj (h ▸ hy)
    dsimp only
    split
    next hf => exact ⟨by rw [h]; simp [← hf], fun hne => absurd hf hne, rfl⟩
    next hf =>
      obtain ⟨-, -, -, hirq, hasked, -⟩ := requestPublication_pub arithFaultRecordNo
        { s with arith := { s.arith with fault := some { x with further := x.further + 1 } } }
      refine ⟨by rw [(requestPublication_reports _ _).arith], fun _ => hasked, by rw [hirq]⟩

end Offer

/-- What was offered stands behind later acts that leave the record, the ring and the causes. -/
theorem arithFaultOffered_stands {target : BitVec 4} {role : Role} {f : FrameItem} {step : ArithStep} {kinds : Kinds}
    {s t u : State} (h : ArithFaultOffered target role f step kinds s t) (hs : Stands t u)
    (ha : u.arith.fault = t.arith.fault) (hd : u.pub.digest = t.pub.digest) (hl : u.pub.digestLost = t.pub.digestLost)
    (hi : u.irq = t.irq) : ArithFaultOffered target role f step kinds s u := by
  obtain ⟨hempty, hfull⟩ := h
  unfold ArithFaultOffered
  rw [ha, hd, hl, hi]
  refine ⟨fun hn => ?_, fun x hx => ?_⟩
  · obtain ⟨hfault, hasked, hcause, hkept, hlost⟩ := hempty hn
    exact ⟨hfault, hs.asked _ hasked, hcause,
      fun hk => ⟨(hkept hk).1.imp (hs.queued _ _) (hs.held _), (hkept hk).2⟩, hlost⟩
  · obtain ⟨hfault, hasked, hcause⟩ := hfull x hx
    exact ⟨hfault, fun hne => hs.asked _ (hasked hne), hcause⟩

end Sys2Proof.Machine.Classification
end

section
/-! SUPPORT. A summary is taken in, and relayed or dropped (R119, R133, R134, R136). -/
namespace Sys2Proof.Machine.Classification
open Sys2Proof.Machine.SampleFrames

/-! ### What the taking of a frame item leaves -/

/-- But for the item taken, the classifier and reports, the taking of an item changes nothing. -/
theorem frameTaken_reports (f : FrameItem) (rest : List WorkItem) (s : State) :
    ReportsFrom { itemTaken rest s with cls := (frameTaken f rest s).cls } (frameTaken f rest s) := by
  cases hl : f.lookup with
  | none =>
    rw [frameTaken_unmatched hl]
    exact .refl _
  | some l =>
    cases ht : takesFirst s l with
    | false =>
      rw [frameTaken_quiet hl ht]
      exact .refl _
    | true =>
      have h := reserve_reports .engine .capture (firstCaptureBody f l) (beforeCapture l rest s)
      rw [frameTaken_captures hl ht, h.cls]
      exact h

theorem frameTaken_outboundIndex (f : FrameItem) (rest : List WorkItem) (s : State) :
    (frameTaken f rest s).pub.outboundIndex = s.pub.outboundIndex := by
  cases hl : f.lookup with
  | none =>
    rw [frameTaken_unmatched hl]
    rfl
  | some l =>
    cases ht : takesFirst s l with
    | false =>
      rw [frameTaken_quiet hl ht]
      rfl
    | true =>
      rw [frameTaken_captures hl ht, (reserve_pub_cases _ _ _ _).1]
      rfl

theorem frameTaken_inEffect (f : FrameItem) (rest : List WorkItem) (s : State) :
    (frameTaken f rest s).inEffect = s.inEffect := by
  simp only [State.inEffect, (frameTaken_reports f rest s).settings]
  rfl

/-- An item that came to no second lookup and left the points has no further effect and nothing to report (R118). -/
theorem runStages_effectless {f : FrameItem} {s v : State} (hp : v.engine.points = s.engine.points)
    (hj : v.engine.job = none) : runStages [.frameEffects, .report] (setJob (some (frameJob f s)) v) = v := by
  have heffects : enterStage .frameEffects (setJob (some (frameJob f s)) v) =
      some (setJob (some (frameJob f s)) v, []) := rfl
  have hreport : enterStage .report (setJob (some (frameJob f s)) v) = some (setJob (some (frameJob f s)) v, []) := by
    have hb : (frameJob f s).before = conditionsOf (setJob (some (frameJob f s)) v) := by
      show conditionsOf s = v.engine.points.map _
      rw [hp]
      rfl
    exact congrArg (fun acts => some (setJob (some (frameJob f s)) v, acts)) (reportPoints_unchanged hb)
  simp only [runStages, heffects, hreport, runActs]
  exact setJob_self hj

/-! ### The intake (R133, R134) -/

section Intake

variable {f : FrameItem} {l : LookupResult} {s : State} (j : Job) (t : State)

theorem intakeStage_relay (hd : l.action.disposition = .relay) :
    intakeStage (frameWork f s) l (setJob (some j) t) = setJob (some j) t := by
  simp only [intakeStage, hd]

theorem intakeStage_processed (hd : l.action.disposition = .process ∨ l.action.disposition = .processAndRelay)
    (u : State) :
    intakeStage (frameWork f s) l u =
      match (frameWork f s).slot with
      | some e =>
        if e.enable then intakeSummary (Fin.ofNat 8 l.action.target.val) e s.inEffect.potency f u else countToDisabled u
      | none => countToDisabled u := by
  rcases hd with hd | hd <;> simp only [intakeStage, hd] <;> rfl

theorem intakeStage_disabled (hl : f.lookup = some l)
    (hd : l.action.disposition = .process ∨ l.action.disposition = .processAndRelay)
    (he : 8 ≤ l.action.target.val
      ∨ slotEnabled (s.engine.slotEntries.get (Fin.ofNat 8 l.action.target.val)).entry = false) :
    intakeStage (frameWork f s) l (setJob (some j) t) = setJob (some j) (countToDisabled t) := by
  have hslot : slotEnabled (frameWork f s).slot = false := by
    rw [frameWork_slot hl]
    split
    next h8 => exact he.resolve_left (by omega)
    next => rfl
  rw [intakeStage_processed hd]
  cases hx : (frameWork f s).slot with
  | none => rfl
  | some e =>
    rw [hx] at hslot
    have he' : e.enable = false := hslot
    simp only [he', Bool.false_eq_true, if_false]
    rfl

theorem intakeStage_enabled {r : Fin 8} {e : SlotEntry} (hl : f.lookup = some l)
    (hd : l.action.disposition = .process ∨ l.action.disposition = .processAndRelay) (hr : l.action.target.val = r.val)
    (he : (s.engine.slotEntries.get r).entry = some e) (hen : e.enable = true) (u : State) :
    intakeStage (frameWork f s) l u = intakeSummary r e s.inEffect.potency f u := by
  have hr' : Fin.ofNat 8 l.action.target.val = r := by rw [hr, Fin.ofNat_val_eq_self]
  have hslot : (frameWork f s).slot = some e := by
    rw [frameWork_slot hl, hr', he, hr, if_pos r.isLt]
  rw [intakeStage_processed hd, hslot, hr']
  simp only [hen, if_true]

variable (r : Fin 8) (e : SlotEntry) (potency : Kinds) (f)

/-- Without a potent kind the sums are added, or the slot is marked for a NaN (R134, R105). -/
theorem intakeSummary_adds (h : (summarySums (t.engine.slots.get r) f).2.2 &&& potency = 0) :
    intakeSummary r e potency f t = setSlot r (slotAfter e f (t.engine.slots.get r)) t := by
  have hk : (summaryStep (t.engine.slots.get r) f).2.2 &&& potency = 0 := h
  simp only [intakeSummary, hk, slotAfter, bne_self_eq_false, Bool.false_eq_true, if_false, Bool.or_eq_true,
    apply_ite (setSlot r · t)]
  rfl

/-- With a potent kind the slot is marked and the abandonment offered (R100, R106). -/
theorem intakeSummary_abandons (h : (summarySums (t.engine.slots.get r) f).2.2 &&& potency ≠ 0) :
    intakeSummary r e potency f t = offerArithFault (BitVec.ofNat 4 r.val) .summary f .summary
      (summarySums (t.engine.slots.get r) f).2.2 (spoilSlot r t) :=
  if_pos (bne_iff_ne.mpr h)

end Intake

/-! ### The relay (R136, R176) -/

/-- A summary at the hop limit is dropped. -/
def relayDropped (s : State) : State :=
  { s with balance := { s.balance with relayDropped := s.balance.relayDropped + 1 } }

/-- A summary of these words takes its ring position and joins the queue. -/
def outboundJoined (words : List Word) (s : State) : State :=
  joinQueue (.outbound s.pub.outboundIndex words)
    { s with pub := { s.pub with outboundIndex := s.pub.outboundIndex + 1 } }

/-- A summary of these words joins the queue and is counted relayed. -/
def relayed (words : List Word) (s : State) : State :=
  let t := outboundJoined words s
  { t with balance := { t.balance with relayed := t.balance.relayed + 1 } }

/-- The words that the model relays are those of the statement. -/
theorem relayFrame_eq (w : List Word) : relayFrame w = relayedWords w := rfl

/-- A summary's processing from its intake on. -/
theorem dispatchFrame_summary {f : FrameItem} {l : LookupResult} {s : State} (hl : f.lookup = some l)
    (hs : f.isSummary = true) (hd : l.action.disposition ≠ .passOnly) (u : State) :
    dispatchFrame (frameWork f s) u = relayStage (frameWork f s) l (intakeStage (frameWork f s) l u) := by
  have hw : (frameWork f s).item = f := rfl
  simp only [dispatchFrame, hw, hl, hd, hs, if_false, if_true]

theorem offerItem_setJob (o : Offer) (j : Job) (s : State) : offerItem o (setJob (some j) s) =
    if hasRoom s then setJob (some j) (joinOffer o s) else setJob (some { j with offer := some o }) s := by
  have hr : hasRoom (setJob (some j) s) = hasRoom s := rfl
  unfold offerItem
  rw [hr]
  split
  · cases o <;> rfl
  · rfl

/-- The acts of a relay: the item is offered, and counted when the engine need not wait (R164). -/
theorem runActs_relay (o : Offer) (s : State) : runActs [.offer o, .await, .countRelayed] s =
    let t := offerItem o s
    if engineWaits t then (t, [.await, .countRelayed])
    else ({ t with balance := { t.balance with relayed := t.balance.relayed + 1 } }, []) := by
  cases h : engineWaits (offerItem o s) <;> simp [runActs, execAct, h]

section Relay

variable {f : FrameItem} {rest : List WorkItem} {l : LookupResult} {s u : State}
  (hr : RoomFor (firstReports f s) s) (hl : f.lookup = some l) (hs : f.isSummary = true)
  (hi : intakeStage (frameWork f s) l (setJob (some (frameJob f s)) (frameTaken f rest s)) =
    setJob (some (frameJob f s)) u)
  (hp : u.engine.points = s.engine.points) (hj : u.engine.job = none)

include hr hl hs hi hp hj

/-- A PROCESS summary ends with its intake. -/
theorem takeFrame_intake (hd : l.action.disposition = .process) : takeFrame f rest s = u := by
  have hdispatch := dispatchFrame_summary (s := s) hl hs (by simp [hd])
    (setJob (some (frameJob f s)) (frameTaken f rest s))
  rw [hi] at hdispatch
  have hrelay : relayStage (frameWork f s) l (setJob (some (frameJob f s)) u) = (setJob (some (frameJob f s)) u, []) := by
    simp [relayStage, hd, Disposition.relays]
  rw [takeFrame_room hr, runStages_dispatched (hdispatch.trans hrelay) hp hj]

/-- A summary with a relay disposition, after its intake, is dropped at the hop limit; below it, it joins the queue and is
counted, or the engine waits with it, offered or already queued. -/
theorem takeFrame_relay_cases (hd : l.action.disposition.relays = true) :
    (u.inEffect.hopLimit.toNat ≤ f.hops.toNat ∧ takeFrame f rest s = relayDropped u)
      ∨ f.hops.toNat < u.inEffect.hopLimit.toNat
        ∧ ((hasRoom u = true ∧ u.pub.heldDigests.any (·.byEngine) = false
            ∧ takeFrame f rest s = relayed (relayedWords f.received) u)
          ∨ ¬(hasRoom u = true ∧ u.pub.heldDigests.any (·.byEngine) = false)
            ∧ ∃ j, takeFrame f rest s = setJob (some j) u
              ∨ takeFrame f rest s = setJob (some j) (outboundJoined (relayedWords f.received) u)) := by
  have hpass : l.action.disposition ≠ .passOnly := fun h => by simp [h, Disposition.relays] at hd
  have hdispatch := dispatchFrame_summary (s := s) hl hs hpass (setJob (some (frameJob f s)) (frameTaken f rest s))
  rw [hi] at hdispatch
  rw [takeFrame_room hr]
  by_cases hlimit : f.hops.toNat < u.inEffect.hopLimit.toNat
  · right
    refine ⟨hlimit, ?_⟩
    have hrelay : relayStage (frameWork f s) l (setJob (some (frameJob f s)) u) =
        (setJob (some (frameJob f s)) u, [.offer (.outbound (relayedWords f.received)), .await, .countRelayed]) := by
      rw [← relayFrame_eq]
      simp only [relayStage, hd, if_true]
      exact if_pos hlimit
    have henter : enterStage .frameDispatch (setJob (some (frameJob f s)) (frameTaken f rest s)) = _ :=
      congrArg some (hdispatch.trans hrelay)
    simp only [frameStages, runStages, henter, runActs_relay, offerItem_setJob]
    by_cases hroom : hasRoom u = true
    · have hwaits : engineWaits (setJob (some (frameJob f s)) (joinOffer (.outbound (relayedWords f.received)) u)) =
          u.pub.heldDigests.any (·.byEngine) := rfl
      simp only [hroom, if_true, hwaits]
      cases hheld : u.pub.heldDigests.any (·.byEngine) with
      | false => exact .inl ⟨trivial, rfl, runStages_effectless (v := relayed (relayedWords f.received) u) hp hj⟩
      | true => exact .inr ⟨by simp, _, .inr rfl⟩
    · have hwaits : engineWaits
          (setJob (some { frameJob f s with offer := some (.outbound (relayedWords f.received)) }) u) = true := rfl
      simp only [hroom, Bool.false_eq_true, if_false, hwaits, if_true]
      exact .inr ⟨by simp, _, .inl rfl⟩
  · left
    refine ⟨Nat.le_of_not_lt hlimit, ?_⟩
    have hrelay : relayStage (frameWork f s) l (setJob (some (frameJob f s)) u) =
        (setJob (some (frameJob f s)) (relayDropped u), []) := by
      simp only [relayStage, hd, if_true]
      exact if_neg hlimit
    exact runStages_dispatched (u := relayDropped u) (hdispatch.trans hrelay) hp hj

end Relay

end Sys2Proof.Machine.Classification
end

section
/-! SUPPORT. What a summary in front leaves: its intake by the sums, and the relay behind the intake (R100, R106, R134,
R136). -/
namespace Sys2Proof.Machine.Classification
open Sys2Proof.Machine.SampleFrames

section Taken

variable (f : FrameItem) (rest : List WorkItem) (s : State)

@[simp] theorem frameTaken_points : (frameTaken f rest s).engine.points = s.engine.points := by rw [frameTaken_engine]
@[simp] theorem frameTaken_slots : (frameTaken f rest s).engine.slots = s.engine.slots := by rw [frameTaken_engine]
@[simp] theorem frameTaken_job : (frameTaken f rest s).engine.job = s.engine.job := by rw [frameTaken_engine]
@[simp] theorem frameTaken_windowNumber :
    (frameTaken f rest s).engine.windowNumber = s.engine.windowNumber := by rw [frameTaken_engine]
@[simp] theorem frameTaken_toDisabledPoint :
    (frameTaken f rest s).engine.toDisabledPoint = s.engine.toDisabledPoint := by rw [frameTaken_engine]
@[simp] theorem frameTaken_arith : (frameTaken f rest s).arith = s.arith := (frameTaken_reports f rest s).arith
@[simp] theorem frameTaken_balance : (frameTaken f rest s).balance = s.balance := (frameTaken_reports f rest s).balance

end Taken

/-- The state with remote slot `r` of `s` changed to `y`, the item `f` taken. -/
def slotTaken (f : FrameItem) (rest : List WorkItem) (s : State) (r : Fin 8) (y : RemoteSlot) : State :=
  { frameTaken f rest s with engine := { (frameTaken f rest s).engine with slots := upd s.engine.slots r y } }

theorem setSlot_frameTaken (f : FrameItem) (rest : List WorkItem) (s : State) (r : Fin 8) (y : RemoteSlot) :
    setSlot r y (frameTaken f rest s) = slotTaken f rest s r y := by
  simp only [setSlot, slotTaken, frameTaken_slots]

/-- The slot marked, and the abandonment at the SUMMARY step offered (R100, R106). -/
def summaryAbandoned (f : FrameItem) (rest : List WorkItem) (s : State) (r : Fin 8) : State :=
  let x := s.engine.slots.get r
  offerArithFault (BitVec.ofNat 4 r.val) .summary f .summary (summarySums x f).2.2
    (slotTaken f rest s r { x with allComplete := false })

section Summary

variable {f : FrameItem} {rest : List WorkItem} {l : LookupResult} {s : State} {r : Fin 8} {e : SlotEntry}

/-- What the intake of the item just taken leaves. -/
def IntakeLeaves (f : FrameItem) (rest : List WorkItem) (l : LookupResult) (s u : State) : Prop :=
  intakeStage (frameWork f s) l (setJob (some (frameJob f s)) (frameTaken f rest s)) = setJob (some (frameJob f s)) u

theorem intake_adds (hl : f.lookup = some l)
    (hd : l.action.disposition = .process ∨ l.action.disposition = .processAndRelay)
    (hr : l.action.target.val = r.val) (he : (s.engine.slotEntries.get r).entry = some e) (hen : e.enable = true)
    (hk : (summarySums (s.engine.slots.get r) f).2.2 &&& s.inEffect.potency = 0) :
    IntakeLeaves f rest l s (slotTaken f rest s r (slotAfter e f (s.engine.slots.get r))) := by
  have hx : (setJob (some (frameJob f s)) (frameTaken f rest s)).engine.slots.get r = s.engine.slots.get r :=
    congrArg (·.get r) (frameTaken_slots f rest s)
  rw [IntakeLeaves, intakeStage_enabled hl hd hr he hen, intakeSummary_adds _ _ _ _ _ (by rwa [hx]), hx,
    ← setSlot_frameTaken]
  rfl

theorem intake_abandons (hl : f.lookup = some l)
    (hd : l.action.disposition = .process ∨ l.action.disposition = .processAndRelay) (hr : l.action.target.val = r.val)
    (he : (s.engine.slotEntries.get r).entry = some e) (hen : e.enable = true)
    (hk : (summarySums (s.engine.slots.get r) f).2.2 &&& s.inEffect.potency ≠ 0) :
    IntakeLeaves f rest l s (summaryAbandoned f rest s r) := by
  have hx : (setJob (some (frameJob f s)) (frameTaken f rest s)).engine.slots.get r = s.engine.slots.get r :=
    congrArg (·.get r) (frameTaken_slots f rest s)
  rw [IntakeLeaves, intakeStage_enabled hl hd hr he hen, intakeSummary_abandons _ _ _ _ _ (by rwa [hx]), spoilSlot, hx,
    summaryAbandoned, ← setSlot_frameTaken, ← offerArithFault_setJob]
  rfl

theorem intake_disabled (hl : f.lookup = some l)
    (hd : l.action.disposition = .process ∨ l.action.disposition = .processAndRelay)
    (he : 8 ≤ l.action.target.val
      ∨ slotEnabled (s.engine.slotEntries.get (Fin.ofNat 8 l.action.target.val)).entry = false) :
    IntakeLeaves f rest l s { frameTaken f rest s with
      engine := { (frameTaken f rest s).engine with toDisabledPoint := s.engine.toDisabledPoint + 1 } } := by
  rw [IntakeLeaves, intakeStage_disabled _ _ hl hd he, countToDisabled, frameTaken_toDisabledPoint]

theorem summaryAbandoned_engine (f : FrameItem) (rest : List WorkItem) (s : State) (r : Fin 8) :
    (summaryAbandoned f rest s r).engine =
      (slotTaken f rest s r { s.engine.slots.get r with allComplete := false }).engine :=
  (offerArithFault_frame _ _ _ _ _ _).1

/-- What an abandonment at the SUMMARY step leaves, reports and offers. -/
theorem summaryAbandoned_spec (f : FrameItem) (rest : List WorkItem) (s : State) (r : Fin 8) :
    let x := s.engine.slots.get r
    let t := summaryAbandoned f rest s r
    ReportsFrom { slotTaken f rest s r { x with allComplete := false } with
        arith := { s.arith with fault := t.arith.fault } } t
      ∧ ArithFaultOffered (BitVec.ofNat 4 r.val) .summary f .summary (summarySums x f).2.2 (frameTaken f rest s) t := by
  intro x t
  have h := offerArithFault_reports (BitVec.ofNat 4 r.val) .summary f .summary (summarySums x f).2.2
    (slotTaken f rest s r { x with allComplete := false })
  have ha : (slotTaken f rest s r { x with allComplete := false }).arith = s.arith := frameTaken_arith f rest s
  rw [ha] at h
  exact ⟨h, offerArithFault_offered (BitVec.ofNat 4 r.val) .summary f .summary (summarySums x f).2.2
    (slotTaken f rest s r { x with allComplete := false })⟩

theorem outboundJoined_stands (words : List Word) (s : State) : Stands s (outboundJoined words s) :=
  ⟨fun _ _ h => List.mem_append_left _ h, fun _ h => h, fun _ h => h, fun _ h => h⟩

/-- A PROCESS summary ends with its intake. -/
theorem exec_process {u : State} (h : SummaryInFront f rest l .process s) (hi : IntakeLeaves f rest l s u)
    (hp : u.engine.points = s.engine.points) (hj : u.engine.job = s.engine.job) : exec .takeFrameItem s = .next u := by
  obtain ⟨hf, hs, hl, hd, hroom⟩ := h
  rw [exec_takeFrameItem hf, takeFrame_intake hroom hl hs hi hp (hj.trans hf.1) hd]

/-- After the intake `u`, the summary is dropped at the hop limit, and relayed below it when the engine need not wait. -/
theorem takeFrame_relay {d : Disposition} {u : State} (h : SummaryInFront f rest l d s) (hd : d.relays = true)
    (hi : IntakeLeaves f rest l s u) (hp : u.engine.points = s.engine.points) (hj : u.engine.job = s.engine.job) :
    (u.inEffect.hopLimit.toNat ≤ f.hops.toNat → takeFrame f rest s = relayDropped u)
      ∧ (f.hops.toNat < u.inEffect.hopLimit.toNat → hasRoom u = true → u.pub.heldDigests.any (·.byEngine) = false →
        takeFrame f rest s = relayed (relayedWords f.received) u) := by
  obtain ⟨hf, hs, hl, rfl, hroom⟩ := h
  have hcases := takeFrame_relay_cases hroom hl hs hi hp (hj.trans hf.1) hd
  refine ⟨fun hlimit => ?_, fun hlimit hr hh => ?_⟩
  · obtain ⟨-, ht⟩ | ⟨hlt, -⟩ := hcases
    · exact ht
    · exact absurd hlt (Nat.not_lt.mpr hlimit)
  · obtain ⟨hle, -⟩ | ⟨-, ⟨-, -, ht⟩ | ⟨hn, -⟩⟩ := hcases
    · exact absurd hlimit (Nat.not_lt.mpr hle)
    · exact ht
    · exact absurd ⟨hr, hh⟩ hn

/-- Behind the intake `u` of a PROCESS AND RELAY summary, dropped, relayed or waiting, what was reported stands, and
besides the relay's own item the balance alone is counted. -/
theorem takeFrame_behind_intake {u : State} (h : SummaryInFront f rest l .processAndRelay s)
    (hi : IntakeLeaves f rest l s u) (hp : u.engine.points = s.engine.points) (hj : u.engine.job = s.engine.job) :
    let t := takeFrame f rest s
    ReportsFrom { u with balance := t.balance } t ∧ Stands u t ∧ t.arith = u.arith ∧ t.pub.digest = u.pub.digest
      ∧ t.pub.digestLost = u.pub.digestLost ∧ t.irq = u.irq := by
  intro t
  obtain ⟨hf, hs, hl, hd, hroom⟩ := h
  have hcases := takeFrame_relay_cases hroom hl hs hi hp (hj.trans hf.1) (by rw [hd]; rfl)
  have hjoined (v : State) (hv : v.pub = (outboundJoined (relayedWords f.received) u).pub) (hirq : v.irq = u.irq) :
      Stands u v :=
    (outboundJoined_stands _ u).trans (.of_eq hv hirq)
  obtain ⟨-, ht⟩ | ⟨-, ⟨-, -, ht⟩ | ⟨-, j, ht | ht⟩⟩ := hcases <;> rw [show t = _ from ht]
  · exact ⟨by constructor <;> rfl, .of_eq rfl rfl, rfl, rfl, rfl, rfl⟩
  · exact ⟨by constructor <;> rfl, hjoined _ rfl rfl, rfl, rfl, rfl, rfl⟩
  · exact ⟨by constructor <;> rfl, .of_eq rfl rfl, rfl, rfl, rfl, rfl⟩
  · exact ⟨by constructor <;> rfl, hjoined _ rfl rfl, rfl, rfl, rfl, rfl⟩

/-- A relayed summary whose intake changed the engine alone. -/
theorem exec_relay {d : Disposition} {engine : EngineState} (h : SummaryInFront f rest l d s) (hd : d.relays = true)
    (hi : IntakeLeaves f rest l s { frameTaken f rest s with engine := engine }) (hp : engine.points = s.engine.points)
    (hj : engine.job = s.engine.job) :
    let taken := frameTaken f rest s
    (s.inEffect.hopLimit.toNat ≤ f.hops.toNat → exec .takeFrameItem s =
      .next { taken with
        engine := engine
        balance := { s.balance with relayDropped := s.balance.relayDropped + 1 } })
    ∧ (f.hops.toNat < s.inEffect.hopLimit.toNat → hasRoom taken = true → taken.pub.heldDigests.any (·.byEngine) = false →
      exec .takeFrameItem s = .next (joinQueue (.outbound s.pub.outboundIndex (relayedWords f.received))
        { taken with
          engine := engine
          pub := { taken.pub with outboundIndex := s.pub.outboundIndex + 1 }
          balance := { s.balance with relayed := s.balance.relayed + 1 } })) := by
  intro taken
  have hb : taken.balance = s.balance := frameTaken_balance f rest s
  have hlimit : taken.inEffect = s.inEffect := frameTaken_inEffect f rest s
  obtain ⟨hdrop, hrelay⟩ := takeFrame_relay h hd hi hp hj
  rw [exec_takeFrameItem h.1, ← hb, ← hlimit, ← frameTaken_outboundIndex f rest s]
  exact ⟨fun hle => congrArg _ (hdrop hle), fun hlt hroom hheld => congrArg _ (hrelay hlt hroom hheld)⟩

theorem reportsFrom_balance {a b : State} (h : ReportsFrom a b) (x : BalanceState) :
    ReportsFrom { a with balance := x } { b with balance := x } := by
  obtain ⟨path, asm, cls, arith, settings, engine, timer, -, proving, cmd, pending⟩ := h
  exact ⟨path, asm, cls, arith, settings, engine, timer, rfl, proving, cmd, pending⟩

/-- A PROCESS AND RELAY summary with a potent kind is abandoned, and dropped or relayed all the same (R106, R136). -/
theorem exec_abandoned_relay (h : SummaryInFront f rest l .processAndRelay s) (hr : l.action.target.val = r.val)
    (he : (s.engine.slotEntries.get r).entry = some e) (hen : e.enable = true)
    (hk : (summarySums (s.engine.slots.get r) f).2.2 &&& s.inEffect.potency ≠ 0) :
    let x := s.engine.slots.get r
    let taken := frameTaken f rest s
    ∃ t, exec .takeFrameItem s = .next t
      ∧ ReportsFrom { taken with
          engine := { taken.engine with slots := upd s.engine.slots r { x with allComplete := false } }
          arith := { s.arith with fault := t.arith.fault }
          balance := t.balance } t
      ∧ ArithFaultOffered (BitVec.ofNat 4 r.val) .summary f .summary (summarySums x f).2.2 taken t
      ∧ (s.inEffect.hopLimit.toNat ≤ f.hops.toNat →
        t.balance = { s.balance with relayDropped := s.balance.relayDropped + 1 })
      ∧ (f.hops.toNat < s.inEffect.hopLimit.toNat → taken.pub.queue.length ≤ 29 →
        taken.pub.heldDigests.any (·.byEngine) = false →
        t.balance = { s.balance with relayed := s.balance.relayed + 1 } ∧ t.engine.job = none
          ∧ OwnItem.outbound s.pub.outboundIndex (relayedWords f.received) ∈ t.pub.queue
          ∧ t.pub.outboundIndex = s.pub.outboundIndex + 1) := by
  intro x taken
  have ⟨hf, _, hl, hd, _⟩ := h
  have hi := intake_abandons (rest := rest) hl (.inr hd) hr he hen hk
  obtain ⟨hreports, hoffered⟩ := summaryAbandoned_spec f rest s r
  obtain ⟨hengine, hindex, hheld, hqueue⟩ := offerArithFault_frame (BitVec.ofNat 4 r.val) .summary f .summary
    (summarySums x f).2.2 (slotTaken f rest s r { x with allComplete := false })
  generalize hu : summaryAbandoned f rest s r = u at hi hreports hoffered
  rw [show offerArithFault _ _ _ _ _ _ = u from hu] at hengine hindex hheld hqueue
  have hp : u.engine.points = s.engine.points :=
    (congrArg EngineState.points hengine).trans (frameTaken_points f rest s)
  have hj : u.engine.job = s.engine.job := (congrArg EngineState.job hengine).trans (frameTaken_job f rest s)
  have hb : u.balance = s.balance := hreports.balance.trans (frameTaken_balance f rest s)
  have hlimit : u.inEffect = s.inEffect := by
    rw [← frameTaken_inEffect f rest s]
    simp only [State.inEffect, hreports.settings]
    rfl
  have hindex' : u.pub.outboundIndex = s.pub.outboundIndex := hindex.trans (frameTaken_outboundIndex f rest s)
  obtain ⟨hdrop, hrelay⟩ := takeFrame_relay h rfl hi hp hj
  obtain ⟨kreports, kstands, karith, kdigest, klost, kirq⟩ := takeFrame_behind_intake h hi hp hj
  have kfault := congrArg ArithState.fault karith
  rw [hlimit] at hdrop hrelay
  refine ⟨_, exec_takeFrameItem hf, ?_, arithFaultOffered_stands hoffered kstands kfault kdigest klost kirq,
    fun hle => ?_, fun hlt hlen hnone => ?_⟩
  · rw [← kfault] at hreports
    exact (reportsFrom_balance hreports _).trans kreports
  · rw [hdrop hle, ← hb]
    rfl
  · have hroom : hasRoom u = true := decide_eq_true (hqueue.trans_lt (Nat.add_le_add_right hlen 3))
    rw [hrelay hlt hroom (hheld.trans hnone), ← hb, ← hindex']
    exact ⟨rfl, hj.trans hf.1, List.mem_append_right _ List.mem_cons_self, rfl⟩

end Summary

end Sys2Proof.Machine.Classification
end

section
/-! The statement about summaries. -/
namespace Sys2Proof.Machine.Classification
open Sys2Proof.Machine.SampleFrames

/-- Settles O37: the intake by its sums, the relay by the hop limit. -/
theorem summaryAddedOrRelayed : Obligations.SummaryAddedOrRelayed := by
  refine ⟨?process, ?relay, ?both⟩
  case process =>
    intro s f rest l r e h hr he hen x kinds taken withSlot
    have ⟨hf, hs, hl, hd, hroom⟩ := h
    refine ⟨fun hk => ?_, fun hk => ?_⟩
    · exact exec_process h (intake_adds hl (.inl hd) hr he hen hk) (frameTaken_points f rest s) (frameTaken_job f rest s)
    · have hengine := summaryAbandoned_engine f rest s r
      have hi := intake_abandons (rest := rest) hl (.inl hd) hr he hen hk
      refine ⟨_, exec_process h hi ?_ ?_, summaryAbandoned_spec f rest s r⟩
      · exact (congrArg EngineState.points hengine).trans (frameTaken_points f rest s)
      · exact (congrArg EngineState.job hengine).trans (frameTaken_job f rest s)
  case relay =>
    intro s f rest l h taken
    have ⟨hf, hs, hl, hd, hroom⟩ := h
    exact exec_relay h rfl (intakeStage_relay _ _ hd) (frameTaken_points f rest s) (frameTaken_job f rest s)
  case both =>
    intro s f rest l h taken disabled relayed
    have ⟨hf, hs, hl, hd, hroom⟩ := h
    refine ⟨fun hdis => ?_, ?_⟩
    · exact exec_relay h rfl (intake_disabled hl (.inr hd) hdis) (frameTaken_points f rest s) (frameTaken_job f rest s)
    intro r e hr he hen x kinds
    refine ⟨fun hk => ?_, fun hk => ?_⟩
    · exact exec_relay h rfl (intake_adds hl (.inr hd) hr he hen hk) (frameTaken_points f rest s)
        (frameTaken_job f rest s)
    · exact exec_abandoned_relay h hr he hen hk

end Sys2Proof.Machine.Classification
end

section
/-! SUPPORT. A four-word sample comes to its second lookup, with its counter and capture (R76, R78, R83, R102, R120,
R121). -/
namespace Sys2Proof.Machine.Classification
open Sys2Proof.Machine.SampleFrames

/-! ### The first check (R95 to R97, R102, R120) -/

theorem concentrationStep_eq (e : PointEntry) (density : F64) : concentrationStep e density =
    (⟨(concentrationOf e density).1, (concentrationOf e density).2.2⟩, (concentrationOf e density).2.1) := by
  simp only [concentrationStep, concentrationOf, clampCv_eq]
  split
  · rfl
  · split <;> rfl

theorem densityFresh_eq (f : FrameItem) (e : PointEntry) (r : PointRecord) :
    densityFresh e r f.timeStamp = decide (isFresh e f r) := by
  rw [Bool.eq_iff_iff, densityFresh_iff, decide_eq_true_iff]

/-- The kinds weighed at the first check and the clamp are those of the steps before it. -/
theorem deriveSample_firstSteps (f : FrameItem) (role : Role) (e : PointEntry) (r : PointRecord) (v : F64) :
    let d := deriveSample role e r v f.timeStamp
    weighed f.carried d = (firstSteps f role e r v).kinds f.carried ∧ d.clamped = (firstSteps f role e r v).clamped := by
  cases role with
  | velocity =>
    by_cases hf : isFresh e f r
    · simp only [deriveSample, deriveVelocity, densityFresh_eq, firstSteps, decide_eq_true_eq, if_pos hf,
        concentrationStep_eq]
      exact ⟨rfl, trivial⟩
    · simp only [deriveSample, deriveVelocity, densityFresh_eq, firstSteps, decide_eq_true_eq, if_neg hf]
      exact ⟨rfl, trivial⟩
  | density =>
    simp only [deriveSample, deriveDensity, firstSteps, concentrationStep_eq]
    exact ⟨rfl, trivial⟩
  | pressure => exact ⟨rfl, rfl⟩
  | summary => exact ⟨rfl, rfl⟩

/-! ### The second lookup (R76, R78, R83, R121) -/

/-- The action a second lookup leaves: the default one without a match (R75). -/
def sampleAction (r : Option SecondResult) : SecondAction := r.elim SecondAction.default (·.action)

/-- What the second lookup leaves for the stages that follow it. -/
def sampleWork (f : FrameItem) (l : LookupResult) (e : PointEntry) (v : F64) (s : State) : SampleWork :=
  let q := (deriveSample l.action.role e (s.engine.points.get l.action.target) v f.timeStamp).quantities
  let r := secondOf f l e v s
  ⟨q.density.isSome, q.concentration.getD 0, sampleAction r, r.map (·.index)⟩

/-- The work of a sample behind its second lookup, and the engine's job with it. -/
def sampledWork (f : FrameItem) (l : LookupResult) (e : PointEntry) (v : F64) (s : State) : FrameWork :=
  { frameWork f s with sample := some (sampleWork f l e v s) }

def sampleJob (f : FrameItem) (l : LookupResult) (e : PointEntry) (v : F64) (s : State) : Job :=
  { frameJob f s with frame := some (sampledWork f l e v s) }

/-- The counter of a match is raised, and a NEXT entry that captures disarmed. -/
def beforeSecond (r : SecondResult) (s : State) : State :=
  { s with cls := { s.cls with
      hits := hitsAfter r.action.counter s.cls.hits
      armed := if r.action.capture = .next then upd s.cls.armed r.index false else s.cls.armed } }

section Lookup

variable {f : FrameItem} {rest : List WorkItem} {l : LookupResult} {e : PointEntry} {v : F64} {s : State}
  {r : SecondResult}

theorem lookedUp_unmatched (h : secondOf f l e v s = none) : lookedUp f rest l e v s = frameTaken f rest s := by
  simp only [lookedUp, h]

theorem lookedUp_quiet (h : secondOf f l e v s = some r) (ht : takesSecond s r = false) : lookedUp f rest l e v s =
    let taken := frameTaken f rest s
    { taken with cls := { taken.cls with hits := hitsAfter r.action.counter taken.cls.hits } } := by
  simp only [lookedUp, h, ht, Bool.false_eq_true, if_false]

theorem lookedUp_captures (h : secondOf f l e v s = some r) (ht : takesSecond s r = true) : lookedUp f rest l e v s =
    reserve .engine .capture (secondBody f l e v r s) (beforeSecond r (frameTaken f rest s)) := by
  simp only [lookedUp, h, ht, if_true]
  rfl

theorem sampleReports_unmatched (h : secondOf f l e v s = none) : sampleReports f l e v s = firstReports f s := by
  simp only [sampleReports, h, List.append_nil]

theorem sampleReports_quiet (h : secondOf f l e v s = some r) (ht : takesSecond s r = false) :
    sampleReports f l e v s = firstReports f s := by
  simp only [sampleReports, h, ht, Bool.false_eq_true, if_false, List.append_nil]

theorem sampleReports_captures (h : secondOf f l e v s = some r) (ht : takesSecond s r = true) :
    sampleReports f l e v s =
      firstReports f s ++ [⟨.capture, secondBody f l e v r s, releaseAt s.engine.windowNumber s⟩] := by
  simp only [sampleReports, h, ht, if_true]

theorem secondCaptures_eq (s : State) (r : SecondResult) : secondCaptures s r = takesSecond s r := by
  unfold secondCaptures takesSecond
  cases r.action.capture <;> rfl

/-- The entry that a second lookup answers is a SECOND entry. -/
theorem secondLookup_entry {key : SampleKey} (h : secondLookup s key = some r) :
    ∃ k a, (s.cls.entries.get r.index).entry = some (.second k a) := by
  rw [secondLookup, secondAmong_eq] at h
  obtain ⟨i, -, hi⟩ := List.exists_of_findSome?_eq_some h
  unfold secondAnswer at hi
  split at hi
  next k a he =>
    split at hi
    · obtain rfl := Option.some.inj hi
      exact ⟨k, a, he⟩
    · cases hi
  next => cases hi

/-- The taking of an item leaves the entries, the range checkers and the band. -/
theorem frameTaken_cls (f : FrameItem) (rest : List WorkItem) (s : State) : (frameTaken f rest s).cls =
    { s.cls with hits := (frameTaken f rest s).cls.hits, armed := (frameTaken f rest s).cls.armed } := by
  cases hl : f.lookup with
  | none =>
    rw [frameTaken_unmatched hl]
    rfl
  | some l =>
    cases ht : takesFirst s l with
    | false =>
      rw [frameTaken_quiet hl ht]
    | true =>
      rw [frameTaken_captures hl ht, (reserve_reports _ _ _ _).cls]
      rfl

/-- The capture of a first lookup disarms no SECOND entry. -/
theorem frameTaken_armed_second {i : Fin 64} (h : ∃ k a, (s.cls.entries.get i).entry = some (.second k a)) :
    (frameTaken f rest s).cls.armed.get i = s.cls.armed.get i := by
  obtain ⟨k, a, he⟩ := h
  cases hl : f.lookup with
  | none =>
    rw [frameTaken_unmatched hl]
    rfl
  | some l =>
    cases ht : takesFirst s l with
    | false => rw [frameTaken_quiet hl ht]
    | true =>
      rw [frameTaken_armed_captures hl ht]
      split
      next hn =>
        obtain ⟨⟨key, action, hfirst⟩, -⟩ := (takesFirst_next hn).mp ht
        have hne : i ≠ l.index := by
          rintro rfl
          rw [he] at hfirst
          cases hfirst
        rw [upd_get, if_neg hne]
      next => rfl

theorem takesSecond_frameTaken (h : secondOf f l e v s = some r) :
    takesSecond (frameTaken f rest s) r = takesSecond s r := by
  unfold takesSecond
  rw [frameTaken_armed_second (secondLookup_entry h)]

/-- The state before the second lookup: the item taken, and the flags of the first check set. -/
def firstChecked (f : FrameItem) (rest : List WorkItem) (l : LookupResult) (e : PointEntry) (v : F64)
    (s : State) : State :=
  let old := s.engine.points.get l.action.target
  setPoint l.action.target { old with sticky := stickyAfter f l.action.role e old v } (frameTaken f rest s)

theorem reserve_setPoint (by_ : Requester) (kind : DigestKind) (body : List Word) (p : Fin 16) (x : PointRecord)
    (s : State) : reserve by_ kind body (setPoint p x s) = setPoint p x (reserve by_ kind body s) := by
  have ho (position : Nat) (words : List Word) (u : State) :
      offerDigest by_ position words (setPoint p x u) = setPoint p x (offerDigest by_ position words u) := by
    unfold offerDigest
    show (if digestRoom u then _ else _) = _
    split <;> rfl
  have ht (u : State) : checkThreshold (setPoint p x u) = setPoint p x (checkThreshold u) := by
    unfold checkThreshold
    show (if u.inEffect.threshold ≤ u.pub.digest.occupied.length then _ else _) = _
    split <;> rfl
  unfold reserve
  show (if canReserve s then
    checkThreshold (offerDigest by_ (nextPosition s) _ (setPoint p x (keepReservation s)))
    else checkThreshold (setPoint p x (loseReservation s))) = _
  rw [ho, ht, ht]
  split <;> rfl

/-- The state behind the second lookup and its capture. -/
def secondLooked (f : FrameItem) (rest : List WorkItem) (l : LookupResult) (e : PointEntry) (v : F64)
    (s : State) : State :=
  let old := s.engine.points.get l.action.target
  setJob (some (sampleJob f l e v s))
    (setPoint l.action.target { old with sticky := stickyAfter f l.action.role e old v } (lookedUp f rest l e v s))

/-- The second lookup of a sample does not see the flags just set, the counter or the armed flags. -/
theorem secondLookup_firstChecked :
    let q := (deriveSample l.action.role e (s.engine.points.get l.action.target) v f.timeStamp).quantities
    let t := setJob (some (frameJob f s)) (firstChecked f rest l e v s)
    sampleKey t l.action.target f q = secondKey f l e v s
      ∧ secondLookup t (secondKey f l e v s) = secondOf f l e v s := by
  intro q t
  have hcls : t.cls = _ := frameTaken_cls f rest s
  have hconditions : (t.engine.points.get l.action.target).conditions =
      (s.engine.points.get l.action.target).conditions := by
    show PointRecord.conditions ((upd _ l.action.target _).get l.action.target) = _
    rw [upd_get, if_pos rfl]
  constructor
  · simp only [secondKey, sampleKey, rangeMask, hcls, hconditions]
    rfl
  · simp only [secondOf, secondLookup, hcls]

/-- A sample whose second lookup does not capture goes on with what it left. -/
theorem lookupSample_quiet (h : ∀ r, secondOf f l e v s = some r → takesSecond s r = false) :
    lookupSample l.action.target f (deriveSample l.action.role e (s.engine.points.get l.action.target) v f.timeStamp)
      (setJob (some (frameJob f s)) (firstChecked f rest l e v s)) = (secondLooked f rest l e v s, []) := by
  obtain ⟨hkey, hlookup⟩ := secondLookup_firstChecked (f := f) (rest := rest) (l := l) (e := e) (v := v) (s := s)
  cases hr : secondOf f l e v s with
  | none =>
    simp only [lookupSample, hkey, hlookup, hr, secondLooked, lookedUp_unmatched hr, sampleJob, sampledWork, sampleWork]
    rfl
  | some r =>
    have hc := (secondCaptures_eq _ r).trans ((takesSecond_frameTaken (rest := rest) hr).trans (h r hr))
    simp only [lookupSample, hkey, hlookup, hr, secondLooked, lookedUp_quiet hr (h r hr), sampleJob, sampledWork,
      sampleWork, raiseHit_eq]
    exact if_neg (Bool.eq_false_iff.mp hc)

theorem lookupSample_captures (hr : secondOf f l e v s = some r) (ht : takesSecond s r = true) :
    lookupSample l.action.target f (deriveSample l.action.role e (s.engine.points.get l.action.target) v f.timeStamp)
      (setJob (some (frameJob f s)) (firstChecked f rest l e v s)) =
    let old := s.engine.points.get l.action.target
    (setJob (some (sampleJob f l e v s)) (setPoint l.action.target
      { old with sticky := stickyAfter f l.action.role e old v } (beforeSecond r (frameTaken f rest s))),
      [.digest .capture (secondBody f l e v r s), .await]) := by
  obtain ⟨hkey, hlookup⟩ := secondLookup_firstChecked (f := f) (rest := rest) (l := l) (e := e) (v := v) (s := s)
  have hc := (secondCaptures_eq _ r).trans ((takesSecond_frameTaken (rest := rest) hr).trans ht)
  simp only [lookupSample, hkey, hlookup, hr, sampleJob, sampledWork, sampleWork, raiseHit_eq, disarm_eq]
  exact if_pos hc

/-! ### The capture of a second lookup (R80, R164) -/

/-- The engine need not wait with a further record when it need not wait with both (R164). -/
theorem roomFor_reserve_iff {kind : DigestKind} {body : List Word} {s : State} (x : Report)
    (h : RoomFor [⟨kind, body, releaseWord s⟩] s) :
    RoomFor [x] (reserve .engine kind body s) ↔ RoomFor [⟨kind, body, releaseWord s⟩, x] s := by
  have hin : (reserve .engine kind body s).inEffect = s.inEffect := by
    simp only [State.inEffect, (reserve_reports _ _ _ _).settings]
  rw [show ([⟨kind, body, releaseWord s⟩, x] : List Report) = [⟨kind, body, releaseWord s⟩] ++ [x] from rfl]
  unfold RoomFor at h ⊢
  rw [hin, (reserve_reported .engine kind body s).1, ringAfter_append]
  dsimp only
  generalize (ringAfter s.inEffect.ringSize (ringAfter s.inEffect.ringSize s.pub.digest _).1 [x]).2.1 = more
  by_cases hc : s.pub.digest.sizePending = false ∧ s.pub.digest.occupied.length < s.inEffect.ringSize
  · have hcan : canReserve s = true := by simpa [canReserve] using hc
    obtain ⟨hheld, hlen⟩ : s.pub.heldDigests = [] ∧ s.pub.queue.length + 1 ≤ 32 := by
      simp only [ringAfter, if_pos hc, List.cons_ne_nil, false_or] at h
      exact h.2
    have hroom : digestRoom (keepReservation s) = true := by
      show (decide (s.pub.queue.length < 32) && s.pub.heldDigests.isEmpty) = true
      simpa [hheld] using hlen
    have hpub : (reserve .engine kind body s).pub.heldDigests = []
        ∧ (reserve .engine kind body s).pub.queue.length = s.pub.queue.length + 1 := by
      simp only [reserve, hcan, if_true, checkThreshold_pub, offerDigest, hroom]
      exact ⟨hheld, List.length_append⟩
    rw [hpub.1, hpub.2]
    cases more <;> simp [ringAfter, hc, hheld] <;> omega
  · have hcan : canReserve s = false := by
      rw [Bool.eq_false_iff]
      simpa [canReserve] using hc
    have hpub : (reserve .engine kind body s).pub.heldDigests = s.pub.heldDigests
        ∧ (reserve .engine kind body s).pub.queue = s.pub.queue := by
      simp [reserve, hcan, checkThreshold_pub, loseReservation]
    simp [hpub, ringAfter, hc]

theorem releaseWord_beforeSecond (f : FrameItem) (rest : List WorkItem) (s : State) (r : SecondResult) :
    releaseWord (beforeSecond r (frameTaken f rest s)) = releaseAt s.engine.windowNumber s := by
  rw [← releaseWord_eq]
  simp only [releaseWord, beforeSecond, frameTaken_engine, (frameTaken_reports f rest s).timer]
  rfl

/-- A capture of the second lookup leaves nothing of the engine's held back exactly when both captures had room. -/
theorem lookedUp_holds_none_iff (hfirst : RoomFor (firstReports f s) s) (h : secondOf f l e v s = some r)
    (ht : takesSecond s r = true) :
    (lookedUp f rest l e v s).pub.heldDigests.any (·.byEngine) = false ↔ RoomFor (sampleReports f l e v s) s := by
  rw [lookedUp_captures h ht, reserve_holds_none_iff, sampleReports_captures h ht, releaseWord_beforeSecond]
  generalize (⟨.capture, secondBody f l e v r s, releaseAt s.engine.windowNumber s⟩ : Report) = x
  show RoomFor [x] (frameTaken f rest s) ↔ _
  cases hl : f.lookup with
  | none =>
    rw [firstReports_unmatched hl, frameTaken_unmatched hl]
    rfl
  | some l' =>
    cases hf : takesFirst s l' with
    | false =>
      rw [firstReports_quiet hl hf, frameTaken_quiet hl hf]
      rfl
    | true =>
      rw [firstReports_captures hl hf rest] at hfirst ⊢
      rw [frameTaken_captures hl hf]
      exact roomFor_reserve_iff x hfirst

/-- A sample without a potent kind sets its flags and makes its second lookup (R102, R121). -/
theorem dispatchFrame_sample (h : ComesToLookup f rest l e v s) :
    dispatchFrame (frameWork f s) (setJob (some (frameJob f s)) (frameTaken f rest s)) =
      lookupSample l.action.target f (deriveSample l.action.role e (s.engine.points.get l.action.target) v f.timeStamp)
        (setJob (some (frameJob f s)) (firstChecked f rest l e v s)) := by
  obtain ⟨⟨-, hs, hl, hd, -, he, hen⟩, hv, hk⟩ := h
  have hpoint : (frameWork f s).point = some e := by simp only [frameWork, hl, he]
  have hitem : (frameWork f s).item = f := rfl
  have hpotency : (frameWork f s).potency = s.inEffect.potency := rfl
  have hpass : l.action.disposition ≠ .passOnly := by simp [hd]
  have hold : (setJob (some (frameJob f s)) (frameTaken f rest s)).engine.points.get l.action.target =
      s.engine.points.get l.action.target := congrArg (·.get l.action.target) (frameTaken_points f rest s)
  obtain ⟨hkinds, hclamped⟩ := deriveSample_firstSteps f l.action.role e (s.engine.points.get l.action.target) v
  simp only [dispatchFrame, hitem, hl, hpass, hs, hpoint, hen, if_false, if_true, Bool.false_eq_true, processSample, hv,
    Option.getD_some, hold, hpotency, potent, hkinds, hk, bne_self_eq_false, modifyPoint, hclamped]
  rfl

theorem runStages_enter {st : Stage} {stages : List Stage} {s : State} {x : State × List Act}
    (h : enterStage st s = some x) : runStages (st :: stages) s = runJob x.2 stages x.1 := by
  simp only [runStages, h, runJob]

theorem comesToLookup_front (h : ComesToLookup f rest l e v s) : FrameInFront f rest s := by
  obtain ⟨⟨hfront, -, -, -, -, -, -⟩, -, -⟩ := h
  exact hfront

theorem comesToLookup_value (h : ComesToLookup f rest l e v s) : f.value = some v := by
  obtain ⟨-, hvalue, -⟩ := h
  exact hvalue

theorem comesToLookup_room (h : ComesToLookup f rest l e v s) : RoomFor (firstReports f s) s := by
  obtain ⟨⟨-, -, -, -, hroom, -, -⟩, -, -⟩ := h
  exact hroom

/-- A sample without a potent kind goes on as its second lookup answers. -/
theorem takeFrame_sample (h : ComesToLookup f rest l e v s) : takeFrame f rest s =
    let looked := lookupSample l.action.target f
      (deriveSample l.action.role e (s.engine.points.get l.action.target) v f.timeStamp)
      (setJob (some (frameJob f s)) (firstChecked f rest l e v s))
    runJob looked.2 [.frameEffects, .report] looked.1 := by
  have henter : enterStage .frameDispatch (setJob (some (frameJob f s)) (frameTaken f rest s)) = _ :=
    congrArg some (dispatchFrame_sample h)
  rw [takeFrame_room (comesToLookup_room h), frameStages, runStages_enter henter]

/-- With room for the captures of both lookups a sample comes to its effects. -/
theorem takeFrame_sample_room (h : ComesToLookup f rest l e v s) (hroom : RoomFor (sampleReports f l e v s) s) :
    takeFrame f rest s = runStages [.frameEffects, .report] (secondLooked f rest l e v s) := by
  have hfirst := comesToLookup_room h
  rw [takeFrame_sample h]
  by_cases hq : ∀ r, secondOf f l e v s = some r → takesSecond s r = false
  · rw [lookupSample_quiet hq]
    rfl
  · simp only [not_forall, Bool.not_eq_false] at hq
    obtain ⟨r, hr, ht⟩ := hq
    have hnone := (lookedUp_holds_none_iff (rest := rest) hfirst hr ht).mpr hroom
    rw [lookupSample_captures hr ht]
    dsimp only
    rw [runJob_digest_await, reserve_setJob, reserve_setPoint, ← lookedUp_captures hr ht]
    exact if_neg (Bool.eq_false_iff.mp hnone)

/-- While the DIGEST item of its second capture waits for room a sample stays before its effects (R164). -/
theorem takeFrame_sample_waits (h : ComesToLookup f rest l e v s) (hroom : ¬RoomFor (sampleReports f l e v s) s) :
    takeFrame f rest s = suspend [.await] [.frameEffects, .report] (secondLooked f rest l e v s) := by
  have hfirst := comesToLookup_room h
  rw [takeFrame_sample h]
  cases hr : secondOf f l e v s with
  | none => exact absurd (sampleReports_unmatched hr ▸ hfirst) hroom
  | some r =>
    cases ht : takesSecond s r with
    | false => exact absurd (sampleReports_quiet hr ht ▸ hfirst) hroom
    | true =>
      have hheld := mt (lookedUp_holds_none_iff (rest := rest) hfirst hr ht).mp hroom
      rw [lookupSample_captures hr ht]
      dsimp only
      rw [runJob_digest_await, reserve_setJob, reserve_setPoint, ← lookedUp_captures hr ht]
      exact if_pos (Bool.eq_true_of_not_eq_false hheld)

end Lookup

end Sys2Proof.Machine.Classification
end

section
/-! SUPPORT. The report at the end of an item over which one point changed (R118). -/
namespace Sys2Proof.Machine.Classification
open Sys2Proof.Machine.SampleFrames

/-- The origins of a report, as fields of its first body word. -/
theorem origins_word (o : Origins) : o.word = packed (originFields o) := by
  have hb (b : Bool) : b.toNat ≤ 1 := Bool.toNat_le b
  have h1 := hb o.lookup.isSome
  have h2 := hb o.engine
  have h3 := hb o.command
  have h4 := hb o.balance
  have h5 := hb o.commit
  simp only [originFields]
  rw [packed_cons _ _ _ 17 (by omega) (by simp), packed_cons _ _ _ 18 (by omega) (by simp),
    packed_cons _ _ _ 19 (by omega) (by simp), packed_cons _ _ _ 20 (by omega) (by simp),
    packed_cons _ _ _ 24 (by omega) (by simp), ← put_eq_packed]
  have hzero (lo : Nat) : put 0 lo = 0#32 := by simp [put]
  unfold Origins.word putBit
  cases o.lookup with
  | none =>
    simp [hzero, BitVec.or_assoc]
  | some i =>
    simp only [Option.isSome_some, Option.map_some, Option.getD_some]
    ac_rfl

/-- The body of a point's CONDITION record, field by field. -/
theorem pointCondition_body (p : Fin 16) (hold : Bool) (o : Origins) (window : Word) (before after : BitVec 8) :
    pointConditionBody p hold o window before after =
      [packed ([(p.val, 4), (hold.toNat, 8)] ++ originFields o), window,
        packed [(before.toNat, 0), (after.toNat, 8)]] := by
  have hp := p.isLt
  have hh : hold.toNat ≤ 1 := Bool.toNat_le hold
  have hb := before.isLt
  simp only [pointConditionBody, List.cons_append, List.nil_append]
  rw [packed_cons _ _ _ 8 (by omega) (by simp [originFields]), packed_cons _ _ _ 16 (by omega) (by simp [originFields]),
    packed_cons _ _ _ 8 (by omega) (by simp), ← put_eq_packed, ← origins_word, BitVec.or_assoc]
  rfl

theorem mem_allPoints : ∀ p : Fin 16, p ∈ allPoints := by decide

/-- Only one member of a list gives anything. -/
theorem flatMap_eq_of_unique {α β : Type} {l : List α} {g : α → List β} {p : α} (hn : l.Nodup) (hp : p ∈ l)
    (h : ∀ q, q ≠ p → g q = []) : l.flatMap g = g p := by
  obtain ⟨a, b, rfl⟩ := List.append_of_mem hp
  obtain ⟨-, hb, hab⟩ := List.nodup_append.mp hn
  have ha : a.flatMap g = [] := List.flatMap_eq_nil_iff.mpr fun q hq => h q (hab q hq p List.mem_cons_self)
  have hb : b.flatMap g = [] := List.flatMap_eq_nil_iff.mpr fun q hq => h q fun he =>
    (List.nodup_cons.mp hb).1 (he ▸ hq)
  rw [List.flatMap_append, List.flatMap_cons, ha, hb, List.nil_append, List.append_nil]

/-- A record, the wait behind it, and then its cause and its publication (R118, R164). -/
theorem runActs_report (kind : DigestKind) (body : List Word) (c : Cause) (r : Fin 28) (s : State) :
    runActs [.digest kind body, .await, .cause c, .publish r] s =
      let t := reserve .engine kind body s
      if engineWaits t then (t, [.await, .cause c, .publish r]) else (requestPublication r (raiseCause c t), []) := by
  cases h : engineWaits (reserve .engine kind body s) <;> simp [runActs, execAct, h]

section Report

variable {j : Job} {s z : State} {p : Fin 16} (hb : j.before = conditionsOf s)
  (hz : ∀ q, q ≠ p → z.engine.points.get q = s.engine.points.get q)

include hb hz

/-- When no other point changed, this point alone is reported. -/
theorem reportPoints_one : reportPoints j (setJob (some j) z) = reportPoint j (setJob (some j) z) p := by
  refine flatMap_eq_of_unique (by decide) (mem_allPoints p) fun q hq => if_pos ?_
  rw [hb, conditionsOf_get]
  show _ = ((z.engine.points.get q).conditions, (z.engine.points.get q).hold)
  rw [hz q hq]

/-- What the end of an item reports of the point that it changed. -/
theorem runStages_report (hw : z.engine.windowNumber = s.engine.windowNumber) (hj : z.engine.job = none) :
    let old := s.engine.points.get p
    let new := z.engine.points.get p
    let o := changeOrigins j (old.conditions, old.hold) (new.conditions, new.hold)
    let t := runStages [.report] (setJob (some j) z)
    ReportsFrom z t ∧ Stands z t ∧ Reported (pointReports p o s.engine.windowNumber (releaseWord z) old new) z t
      ∧ (t.engine.job = none → old.conditions ≠ new.conditions ∨ old.hold ≠ new.hold →
        Asked (pointRecordNo p) t ∧ (z.inEffect.causeEnable.getLsbD 1 = true → t.irq.getLsbD 1 = true)) := by
  intro old new o t
  have henter : enterStage .report (setJob (some j) z) = some (setJob (some j) z, reportPoint j (setJob (some j) z) p) :=
    congrArg (fun acts => some (setJob (some j) z, acts)) (reportPoints_one hb hz)
  have ht : t = runJob (reportPoint j (setJob (some j) z) p) [] (setJob (some j) z) := runStages_enter henter
  have hpoint : reportPoint j (setJob (some j) z) p =
      if (old.conditions, old.hold) = (new.conditions, new.hold) then []
      else [.digest .condition (pointConditionBody p new.hold o s.engine.windowNumber old.conditions new.conditions),
        .await, .cause .condition, .publish (pointRecordNo p)] := by
    unfold reportPoint
    rw [hb, conditionsOf_get, ← hw]
    rfl
  clear_value t
  by_cases hc : (old.conditions, old.hold) = (new.conditions, new.hold)
  · have hsame : t = z := by
      rw [ht, hpoint, if_pos hc]
      exact setJob_self hj
    obtain ⟨hcond, hhold⟩ := Prod.mk.inj hc
    rw [hsame, pointReports, if_pos ⟨hcond, hhold⟩]
    exact ⟨.refl z, .refl z, reported_nil rfl rfl,
      fun _ hne => absurd hne (by simp [hcond, hhold])⟩
  · generalize hbody :
      pointConditionBody p new.hold o s.engine.windowNumber old.conditions new.conditions = body at hpoint
    have hreports : pointReports p o s.engine.windowNumber (releaseWord z) old new =
        [⟨.condition, body, releaseWord z⟩] := by
      rw [pointReports, if_neg (fun h => hc (Prod.ext h.1 h.2)), ← hbody, pointCondition_body]
    let taken := setJob (some j) z
    have hjob : (reserve .engine .condition body taken).engine.job = some j := by
      rw [reserve_engine]
      rfl
    have kreports := (setJob_reports (some j) z).trans (reserve_reports .engine .condition body taken)
    have kstands := (Stands.of_eq (s := z) (t := taken) rfl rfl).trans (reserve_stands .engine .condition body taken)
    have kreported : Reported [⟨.condition, body, releaseWord z⟩] z (reserve .engine .condition body taken) :=
      reserve_reported .engine .condition body taken
    rw [hreports]
    rw [hpoint, if_neg hc, runJob, runActs_report] at ht
    generalize reserve .engine .condition body taken = u at ht hjob kreports kstands kreported
    have hin : u.inEffect = z.inEffect := by simp only [State.inEffect, kreports.settings]
    cases hwaits : engineWaits u with
    | true =>
      have ht' : t = suspend [.await, .cause .condition, .publish (pointRecordNo p)] [] u := by
        simpa only [hwaits, if_true] using ht
      have hsuspended : t.engine.job ≠ none := by
        rw [ht']
        show u.engine.job.map _ ≠ none
        rw [hjob]
        exact Option.some_ne_none _
      refine ⟨?_, ?_, ?_, fun hn => absurd hn hsuspended⟩ <;> rw [ht']
      · exact kreports.trans (setJob_reports _ u)
      · exact kstands.trans (.of_eq rfl rfl)
      · exact kreported
    | false =>
      have ht' : t = setJob none (requestPublication (pointRecordNo p) (raiseCause .condition u)) := by
        simpa only [hwaits, Bool.false_eq_true, if_false, runStages] using ht
      obtain ⟨hring, hlost, -, hirq, hasked, -⟩ := requestPublication_pub (pointRecordNo p) (raiseCause .condition u)
      have hstands : Stands u t := by
        rw [ht']
        exact ((raiseCause_stands .condition u).trans (requestPublication_stands _ _)).trans (.of_eq rfl rfl)
      have hreported : Reported [] u t := by
        rw [ht']
        exact reported_nil hring hlost
      refine ⟨?_, kstands.trans hstands, reported_append kreported hreported hstands hin, ?_⟩ <;> rw [ht']
      · exact ((kreports.trans (raiseCause_reports _ _)).trans (requestPublication_reports _ _)).trans
          (setJob_reports _ _)
      · refine fun _ _ => ⟨hasked, fun he => ?_⟩
        show BitVec.getLsbD (requestPublication _ _).irq 1 = true
        rw [hirq, raiseCause_irq, hin]
        simp [Cause.mask, he]

end Report

end Sys2Proof.Machine.Classification
end

section
/-! SUPPORT. What a sample leaves behind its second lookup: the condition mode, the match interrupt, the accumulation and
the report (R75, R76, R117, R118, R122). -/
namespace Sys2Proof.Machine.Classification
open Sys2Proof.Machine.SampleFrames

/-- A match with match interrupt sets its cause (R76). -/
def matchRaised (r : Option SecondResult) (s : State) : State :=
  if (sampleAction r).matchInterrupt then raiseCause .matched s else s

/-- The state in which a sample comes to its accumulation. -/
def sampleState (f : FrameItem) (rest : List WorkItem) (l : LookupResult) (e : PointEntry) (v : F64)
    (s : State) : State :=
  let p := l.action.target
  let old := s.engine.points.get p
  let r := secondOf f l e v s
  setJob (some (sampleJob f l e v s))
    (setPoint p { modeApplied r old with sticky := stickyAfter f l.action.role e old v }
      (matchRaised r (lookedUp f rest l e v s)))

theorem modeApplied_eq (r : Option SecondResult) (x : PointRecord) :
    modeApplied r x = applyMode (sampleAction r).mode (sampleAction r).operand x := by
  cases r with
  | none => exact (ite_self x).symm
  | some r => rfl

/-- A condition mode changes the conditions and HOLD alone (R117). -/
theorem applyMode_frame (mode : CondMode) (operand : BitVec 8) (x : PointRecord) : applyMode mode operand x =
    { x with conditions := (applyMode mode operand x).conditions, hold := (applyMode mode operand x).hold } := by
  by_cases hh : x.hold = true
  · rw [show applyMode mode operand x = x from if_pos hh]
  · cases mode <;> simp only [applyMode, if_neg hh]

theorem applyMode_sticky (mode : CondMode) (operand sticky : BitVec 8) (x : PointRecord) :
    applyMode mode operand { x with sticky := sticky } = { applyMode mode operand x with sticky := sticky } := by
  by_cases hh : x.hold = true
  · simp [applyMode, hh]
  · cases mode <;> simp [applyMode, hh]

theorem modeApplied_frame (r : Option SecondResult) (x : PointRecord) : modeApplied r x =
    { x with conditions := (modeApplied r x).conditions, hold := (modeApplied r x).hold } := by
  rw [modeApplied_eq]
  exact applyMode_frame _ _ x

theorem modifyPoint_setPoint (p : Fin 16) (g : PointRecord → PointRecord) (x : PointRecord) (s : State) :
    modifyPoint p g (setPoint p x s) = setPoint p (g x) s := by
  simp only [modifyPoint, setPoint, upd_get, upd_upd, if_true]

theorem setPoint_setPoint (p : Fin 16) (x y : PointRecord) (s : State) :
    setPoint p y (setPoint p x s) = setPoint p y s := by
  simp only [setPoint, upd_upd]

theorem matchRaised_eq (r : Option SecondResult) (s : State) :
    matchRaised r s = { s with irq := (matchRaised r s).irq } := by
  unfold matchRaised
  split <;> rfl

section Sample

variable {f : FrameItem} {rest : List WorkItem} {l : LookupResult} {e : PointEntry} {v : F64} {s : State}

section LookedUp

variable (f : FrameItem) (rest : List WorkItem) (l : LookupResult) (e : PointEntry) (v : F64) (s : State)

/-- In the engine the lookups change what the taking of the item changes. -/
theorem lookedUp_engine :
    (lookedUp f rest l e v s).engine = (frameTaken f rest s).engine := by
  cases h : secondOf f l e v s with
  | none => rw [lookedUp_unmatched h]
  | some r =>
    cases ht : takesSecond s r with
    | false => rw [lookedUp_quiet h ht]
    | true =>
      rw [lookedUp_captures h ht, reserve_engine]
      rfl

theorem lookedUp_points :
    (lookedUp f rest l e v s).engine.points = s.engine.points := by
  rw [lookedUp_engine, frameTaken_points]

/-- The second lookup changes the classifier, and nothing else but reports. -/
theorem lookedUp_reports :
    ReportsFrom { frameTaken f rest s with cls := (lookedUp f rest l e v s).cls } (lookedUp f rest l e v s) := by
  cases h : secondOf f l e v s with
  | none =>
    rw [lookedUp_unmatched h]
    exact .refl _
  | some r =>
    cases ht : takesSecond s r with
    | false =>
      rw [lookedUp_quiet h ht]
      exact .refl _
    | true =>
      have hr := reserve_reports .engine .capture (secondBody f l e v r s) (beforeSecond r (frameTaken f rest s))
      rw [lookedUp_captures h ht, hr.cls]
      exact hr

theorem lookedUp_inEffect :
    (lookedUp f rest l e v s).inEffect = s.inEffect := by
  rw [← frameTaken_inEffect f rest s]
  simp only [State.inEffect, (lookedUp_reports f rest l e v s).settings]

theorem lookedUp_releaseWord :
    releaseWord (lookedUp f rest l e v s) = releaseAt s.engine.windowNumber s := by
  rw [← releaseWord_eq]
  simp only [releaseWord, lookedUp_engine, frameTaken_engine, (lookedUp_reports f rest l e v s).timer,
    (frameTaken_reports f rest s).timer]
  rfl

theorem lookedUp_proving :
    (lookedUp f rest l e v s).proving = s.proving :=
  (lookedUp_reports f rest l e v s).proving.trans (frameTaken_reports f rest s).proving

/-- The captures of both lookups are reserved, and no other record (R81). -/
theorem lookedUp_reported :
    Reported (sampleReports f l e v s) s (lookedUp f rest l e v s) := by
  have hfirst := frameTaken_reported f rest s
  cases h : secondOf f l e v s with
  | none => rwa [sampleReports_unmatched h, lookedUp_unmatched h]
  | some r =>
    cases ht : takesSecond s r with
    | false => rwa [sampleReports_quiet h ht, lookedUp_quiet h ht]
    | true =>
      rw [sampleReports_captures h ht, lookedUp_captures h ht, ← releaseWord_beforeSecond f rest s r]
      have hstands := (Stands.of_eq (s := frameTaken f rest s) (t := beforeSecond r (frameTaken f rest s)) rfl rfl).trans
        (reserve_stands .engine .capture (secondBody f l e v r s) _)
      exact reported_append hfirst (reserve_reported .engine .capture _ (beforeSecond r (frameTaken f rest s))) hstands
        (frameTaken_inEffect f rest s)

end LookedUp

/-- The condition mode and the match interrupt of a sample act before its accumulation (R76, R121). -/
theorem frameEffects_sample (h : ComesToLookup f rest l e v s) :
    frameEffects (sampledWork f l e v s) (secondLooked f rest l e v s) =
      accumulate (sampledWork f l e v s) (sampleWork f l e v s) l e (sampleState f rest l e v s) := by
  obtain ⟨⟨-, -, hl, -, -, he, -⟩, -, -⟩ := h
  have hpoint : (sampledWork f l e v s).point = some e := by simp only [sampledWork, frameWork, hl, he]
  have hsample : (sampledWork f l e v s).sample = some (sampleWork f l e v s) := rfl
  have hitem : (sampledWork f l e v s).item.lookup = some l := hl
  have hstate : sampleState f rest l e v s =
      let t := modifyPoint l.action.target
        (applyMode (sampleWork f l e v s).action.mode (sampleWork f l e v s).action.operand) (secondLooked f rest l e v s)
      if (sampleWork f l e v s).action.matchInterrupt then raiseCause .matched t else t := by
    have hmode : modifyPoint l.action.target
        (applyMode (sampleWork f l e v s).action.mode (sampleWork f l e v s).action.operand)
        (secondLooked f rest l e v s) =
          setJob (some (sampleJob f l e v s)) (setPoint l.action.target
            { modeApplied (secondOf f l e v s) (s.engine.points.get l.action.target) with
              sticky := stickyAfter f l.action.role e (s.engine.points.get l.action.target) v }
            (lookedUp f rest l e v s)) := by
      rw [modeApplied_eq, ← applyMode_sticky, ← modifyPoint_setPoint]
      rfl
    rw [hmode]
    dsimp only
    unfold sampleState matchRaised
    show setJob _ (setPoint _ _ (if (sampleWork f l e v s).action.matchInterrupt then _ else _)) = _
    split <;> rfl
  simp only [frameEffects, hsample, hitem, hpoint, hstate]

/-- The origins of the report of a sample (R118). -/
theorem changeOrigins_sample (old new : PointRecord) :
    changeOrigins (sampleJob f l e v s) (old.conditions, old.hold) (new.conditions, new.hold) =
      sampleOrigins (secondOf f l e v s) old new := by
  have hentry : (sampleJob f l e v s).frame.bind (fun w => w.sample.bind (·.entry)) =
      (secondOf f l e v s).map (·.index) := rfl
  have hcommand : (sampleJob f l e v s).isCommand = false := rfl
  have hbne (x : BitVec 8) : (x != 0) = decide (x ≠ 0) := by rw [Bool.eq_iff_iff, bne_iff_ne, decide_eq_true_iff]
  simp only [changeOrigins, hcommand, hentry, sampleOrigins, Bool.or_eq_true, bne_iff_ne, hbne, decide_eq_true_iff,
    Bool.false_eq_true, if_false]

/-! ### The state a sample leaves -/

/-- The state a sample leaves before its report: its point's record, the run, and the cause of its match. -/
def sampleLeft (f : FrameItem) (rest : List WorkItem) (l : LookupResult) (e : PointEntry) (v : F64)
    (new : PointRecord) (proving : ProvingState) (s : State) : State :=
  let looked := lookedUp f rest l e v s
  { looked with
    engine := { looked.engine with points := upd s.engine.points l.action.target new }
    proving := proving
    irq := (matchRaised (secondOf f l e v s) looked).irq }

/-- What the accumulation of this sample leaves of its point's record and of the run. -/
def AccumulationLeaves (f : FrameItem) (rest : List WorkItem) (l : LookupResult) (e : PointEntry) (v : F64)
    (new : PointRecord) (proving : ProvingState) (s : State) : Prop :=
  accumulate (sampledWork f l e v s) (sampleWork f l e v s) l e (sampleState f rest l e v s) =
    setProving proving (setPoint l.action.target new (sampleState f rest l e v s))

section Left

variable (f : FrameItem) (rest : List WorkItem) (l : LookupResult) (e : PointEntry) (v : F64) (new : PointRecord)
  (proving : ProvingState) (s : State)

theorem setProving_sampleState :
    setProving proving (setPoint l.action.target new (sampleState f rest l e v s)) =
      setJob (some (sampleJob f l e v s)) (sampleLeft f rest l e v new proving s) := by
  have hset (x y : PointRecord) (u : State) :
      setPoint l.action.target y (setJob (some (sampleJob f l e v s)) (setPoint l.action.target x u)) =
        setJob (some (sampleJob f l e v s)) (setPoint l.action.target y u) :=
    congrArg (setJob _) (setPoint_setPoint _ x y u)
  rw [sampleState, hset, matchRaised_eq, sampleLeft, ← lookedUp_points f rest l e v s]
  rfl

theorem sampleLeft_get (q : Fin 16) : (sampleLeft f rest l e v new proving s).engine.points.get q =
    if q = l.action.target then new else s.engine.points.get q :=
  upd_get _ _ _ _

theorem sampleLeft_windowNumber :
    (sampleLeft f rest l e v new proving s).engine.windowNumber = s.engine.windowNumber := by
  rw [← frameTaken_windowNumber f rest s, ← lookedUp_engine f rest l e v s]
  rfl

theorem sampleLeft_job : (sampleLeft f rest l e v new proving s).engine.job = s.engine.job := by
  rw [← frameTaken_job f rest s, ← lookedUp_engine f rest l e v s]
  rfl

theorem sampleLeft_releaseWord :
    releaseWord (sampleLeft f rest l e v new proving s) = releaseAt s.engine.windowNumber s :=
  lookedUp_releaseWord f rest l e v s

theorem sampleLeft_inEffect : (sampleLeft f rest l e v new proving s).inEffect = s.inEffect :=
  lookedUp_inEffect f rest l e v s

theorem sampleLeft_reported :
    Reported (sampleReports f l e v s) s (sampleLeft f rest l e v new proving s) :=
  lookedUp_reported f rest l e v s

theorem sampleLeft_reports : ReportsFrom { lookedUp f rest l e v s with
    engine := { (lookedUp f rest l e v s).engine with points := upd s.engine.points l.action.target new }
    proving := proving } (sampleLeft f rest l e v new proving s) := by
  constructor <;> rfl

theorem sampleLeft_matched : MatchReported (secondOf f l e v s) s (sampleLeft f rest l e v new proving s) := by
  intro x hx hm he
  show (matchRaised (secondOf f l e v s) (lookedUp f rest l e v s)).irq.getLsbD 2 = true
  have hraised : matchRaised (secondOf f l e v s) (lookedUp f rest l e v s) =
      raiseCause .matched (lookedUp f rest l e v s) := by
    rw [hx]
    exact if_pos hm
  rw [hraised, raiseCause_irq, lookedUp_inEffect]
  simp [Cause.mask, he]

end Left

/-- A sample that comes to its accumulation leaves the record and the run that the accumulation gives. -/
theorem leavesRecord {new : PointRecord} {proving : ProvingState} (h : ComesToLookup f rest l e v s)
    (hroom : RoomFor (sampleReports f l e v s) s) (ha : AccumulationLeaves f rest l e v new proving s) :
    LeavesRecord f rest l e v new proving s := by
  have henter : enterStage .frameEffects (secondLooked f rest l e v s) =
      some (setJob (some (sampleJob f l e v s)) (sampleLeft f rest l e v new proving s), []) :=
    congrArg (fun t => some (t, []))
      ((frameEffects_sample h).trans (ha.trans (setProving_sampleState f rest l e v new proving s)))
  have hget := sampleLeft_get f rest l e v new proving s
  have hin := sampleLeft_inEffect f rest l e v new proving s
  have hnew := (hget l.action.target).trans (if_pos rfl)
  obtain ⟨hreports, hstands, hreported, hasked⟩ := runStages_report (j := sampleJob f l e v s) (s := s) rfl
    (fun q hq => (hget q).trans (if_neg hq)) (sampleLeft_windowNumber f rest l e v new proving s)
    ((sampleLeft_job f rest l e v new proving s).trans (comesToLookup_front h).1)
  rw [hnew, changeOrigins_sample, sampleLeft_releaseWord] at hreported
  rw [hnew, hin] at hasked
  refine ⟨_, ?_, (sampleLeft_reports f rest l e v new proving s).trans hreports, fun x hx hm he => hstands.irq 2 ?_,
    reported_append (sampleLeft_reported f rest l e v new proving s) hreported hstands hin, hasked⟩
  · rw [exec_takeFrameItem (comesToLookup_front h), takeFrame_sample_room h hroom, runStages_enter henter]
    rfl
  · exact sampleLeft_matched f rest l e v new proving s x hx hm he

end Sample

end Sys2Proof.Machine.Classification
end

section
/-! SUPPORT. The accumulation of a sample as a change of its point's record and of the run (R98, R105, R122 to R124,
R155). -/
namespace Sys2Proof.Machine.Classification
open Sys2Proof.Machine.SampleFrames

/-! ### The record of the point -/

theorem setProving_self {r : ProvingState} {s : State} (h : s.proving = r) : setProving r s = s := by
  subst h
  rfl

/-- The record of a sample that skips its accumulation (R105). -/
def skippedRecord (x : PointRecord) : PointRecord :=
  { x with window := markedWindow x.window, sticky := x.sticky ||| stickyNanSkipped }

/-- The record of a sample at a time gap, before it is stored (R123). -/
def gapRecord (x : PointRecord) : PointRecord :=
  { x with window := markedWindow x.window, sticky := x.sticky ||| stickyTimeGap }

theorem mark_enabled {p : Fin 16} {s : State} (h : s.pointEnabled p = true) :
    mark (.point p) s = setPoint p (s.engine.points.get p).incomplete s :=
  if_pos h

theorem skipNaN_eq {p : Fin 16} {s : State} (h : s.pointEnabled p = true) :
    skipNaN p s = setPoint p (skippedRecord (s.engine.points.get p)) s := by
  rw [skipNaN, mark_enabled h, modifyPoint_setPoint]
  rfl

theorem timeGap_eq {p : Fin 16} {s : State} (h : s.pointEnabled p = true) :
    timeGap p s = setPoint p (gapRecord (s.engine.points.get p)) s := by
  rw [timeGap, mark_enabled h, modifyPoint_setPoint]
  rfl

/-! ### The sums of an increment (R98, R105, R124, R155) -/

theorem feedOf_cases (s : State) (p : Fin 16) :
    (¬isFed s.proving p ∧ feedOf s p = .none)
      ∨ (isFed s.proving p ∧ p = s.proving.test ∧ feedOf s p = .test)
      ∨ (isFed s.proving p ∧ p ≠ s.proving.test ∧ feedOf s p = .reference) := by
  by_cases hr : s.proving.run = .running
  · by_cases ht : p = s.proving.test
    · exact .inr (.inl ⟨⟨hr, .inl ht⟩, ht, by simp only [feedOf, if_pos hr, if_pos ht]⟩)
    · by_cases hq : p = s.proving.reference
      · exact .inr (.inr ⟨⟨hr, .inr hq⟩, ht, by simp only [feedOf, if_pos hr, if_neg ht, if_pos hq]⟩)
      · exact .inl ⟨fun h => h.2.elim ht hq, by simp only [feedOf, if_pos hr, if_neg ht, if_neg hq]⟩
  · exact .inl ⟨fun h => hr h.1, if_neg hr⟩

/-- The proving volume with the increment, for a point of a RUNNING run (R155). -/
def fedSum (run : ProvingState) (p : Fin 16) (volume : F64) : Result :=
  if isFed run p then fAdd (held64 (if p = run.test then run.testVolume else run.referenceVolume)) (held64 volume)
  else ⟨0, 0⟩

/-- The sums that the solids of an increment propose, with their kinds. -/
def solidsSums (r : PointRecord) (solids : F64) : F64 × F64 × Kinds :=
  let total := fAdd (held64 r.solidsTotal) (held64 solids)
  let window := fAdd (held64 r.window.solids) (held64 solids)
  (total.value, window.value, total.kinds ||| window.kinds)

/-- The proposed sums: volumes always, solids when there are any, the proving volume of a point that feeds one. -/
theorem proposeSums_eq (r : PointRecord) (inc : Increments) (p : Fin 16) (s : State) :
    proposeSums r inc (feedOf s p) (feedVolume (feedOf s p) s) =
      let total := fAdd (held64 r.volumeTotal) (held64 inc.volume)
      let window := fAdd (held64 r.window.volume) (held64 inc.volume)
      let fed := fedSum s.proving p inc.volume
      { volumeTotal := total.value
        windowVolume := window.value
        solids := inc.solids.map fun m => ((solidsSums r m).1, (solidsSums r m).2.1)
        proving := fed.value
        kinds := inc.kinds ||| total.kinds ||| window.kinds ||| fed.kinds
          ||| inc.solids.elim 0 fun m => (solidsSums r m).2.2 } := by
  obtain ⟨hfed, hfeed⟩ | ⟨hfed, ht, hfeed⟩ | ⟨hfed, ht, hfeed⟩ := feedOf_cases s p
  · have hsum : fedSum s.proving p inc.volume = ⟨0, 0⟩ := if_neg hfed
    cases hm : inc.solids <;> simp [proposeSums, hfeed, hsum, hm, solidsSums, BitVec.or_assoc]
  · have hsum : fedSum s.proving p inc.volume = fAdd (held64 s.proving.testVolume) (held64 inc.volume) := by
      rw [fedSum, if_pos hfed, if_pos ht]
    cases hm : inc.solids <;> simp [proposeSums, hfeed, feedVolume, hsum, hm, solidsSums, BitVec.or_assoc]
  · have hsum : fedSum s.proving p inc.volume = fAdd (held64 s.proving.referenceVolume) (held64 inc.volume) := by
      rw [fedSum, if_pos hfed, if_neg ht]
    cases hm : inc.solids <;> simp [proposeSums, hfeed, feedVolume, hsum, hm, solidsSums, BitVec.or_assoc]

/-- The increments of a velocity at this record, with its solids when the density is fresh. -/
def sampleIncrements (f : FrameItem) (e : PointEntry) (v : F64) (r : PointRecord) : Increments :=
  incrementsOf e v r.velocity (f.timeStamp - r.velocityTime)
    (if isFresh e f r then some (concentrationOf e r.density).1 else none)

/-- The quantities that the model tests for NaN. -/
theorem proposedNaN_iff (inc : Increments) (x : Proposed) : proposedNaN inc x = true ↔
    f64IsNaN inc.volume = true ∨ f64IsNaN x.volumeTotal = true ∨ f64IsNaN x.windowVolume = true
      ∨ (∃ m, inc.solids = some m ∧ f64IsNaN m = true)
      ∨ (∃ m, x.solids = some m ∧ (f64IsNaN m.1 = true ∨ f64IsNaN m.2 = true)) ∨ f64IsNaN x.proving = true := by
  unfold proposedNaN
  cases inc.solids <;> cases x.solids <;> simp [or_assoc, or_comm, or_left_comm]

/-- The sums proposed for a velocity at this record of point `p`. -/
def sampleProposed (f : FrameItem) (e : PointEntry) (v : F64) (r : PointRecord) (p : Fin 16) (s : State) : Proposed :=
  proposeSums r (sampleIncrements f e v r) (feedOf s p) (feedVolume (feedOf s p) s)

section Sums

variable (f : FrameItem) (e : PointEntry) (v : F64) (r : PointRecord) (p : Fin 16) (s : State)

theorem sampleIncrements_fresh (h : isFresh e f r) : sampleIncrements f e v r =
    let volume := volumeIncrement e v r.velocity (f.timeStamp - r.velocityTime)
    let part := fMul (held64 volume.1) (held64 (concentrationOf e r.density).1)
    let solids := fMul (held64 part.value) (held32 e.solids)
    ⟨volume.1, some solids.value, volume.2 ||| part.kinds ||| solids.kinds⟩ := by
  rw [sampleIncrements, if_pos h]
  rfl

theorem sampleIncrements_stale (h : ¬isFresh e f r) : sampleIncrements f e v r =
    let volume := volumeIncrement e v r.velocity (f.timeStamp - r.velocityTime)
    ⟨volume.1, none, volume.2⟩ := by
  rw [sampleIncrements, if_neg h]
  rfl

theorem sampleProposed_kinds : (sampleProposed f e v r p s).kinds = (sumsOf f e v r s.proving p).kinds := by
  rw [sampleProposed, proposeSums_eq]
  by_cases hf : isFresh e f r
  · simp only [sampleIncrements_fresh _ _ _ _ hf, sumsOf, if_pos hf, fedSum, apply_ite Result.kinds, Option.elim,
      solidsSums]
    ac_rfl
  · simp only [sampleIncrements_stale _ _ _ _ hf, sumsOf, if_neg hf, fedSum, apply_ite Result.kinds, Option.elim]
    ac_rfl

theorem fedSum_nan (run : ProvingState) (volume : F64) : f64IsNaN (fedSum run p volume).value = true ↔
    isFed run p ∧ f64IsNaN
      (fAdd (held64 (if p = run.test then run.testVolume else run.referenceVolume)) (held64 volume)).value = true := by
  have hzero : ¬f64IsNaN 0 = true := by decide
  unfold fedSum
  split
  next h => exact (and_iff_right h).symm
  next h => exact iff_of_false hzero fun hn => h hn.1

/-- The tested quantities of R105 are those that the model tests. -/
theorem sampleProposed_nan :
    proposedNaN (sampleIncrements f e v r) (sampleProposed f e v r p s) = true ↔
      ∃ y ∈ (sumsOf f e v r s.proving p).tested, f64IsNaN y = true := by
  rw [proposedNaN_iff, sampleProposed, proposeSums_eq]
  by_cases hf : isFresh e f r
  · simp [sampleIncrements_fresh _ _ _ _ hf, sumsOf, if_pos hf, fedSum_nan, solidsSums, or_assoc]
  · simp [sampleIncrements_stale _ _ _ _ hf, sumsOf, if_neg hf, fedSum_nan]

/-- The record of a point that takes an increment (R124). -/
def summedRecord (f : FrameItem) (e : PointEntry) (x : Sums) (r : PointRecord) : PointRecord :=
  { r with
    volumeTotal := x.volumeTotal
    solidsTotal := x.solidsTotal
    window := { r.window with
      volume := x.windowVolume
      solids := x.windowSolids
      solidsComplete := r.window.solidsComplete && decide (isFresh e f r) } }

theorem storeSums_eq :
    storeSums (sampleProposed f e v r p s) r = summedRecord f e (sumsOf f e v r s.proving p) r := by
  rw [sampleProposed, proposeSums_eq]
  by_cases hf : isFresh e f r
  · simp only [sampleIncrements_fresh _ _ _ _ hf, sumsOf, if_pos hf, decide_eq_true hf, Bool.and_true, Option.map,
      storeSums, summedRecord, solidsSums]
  · simp only [sampleIncrements_stale _ _ _ _ hf, sumsOf, if_neg hf, decide_eq_false hf, Bool.and_false, Option.map,
      storeSums, summedRecord]

/-- The run takes the increment of its point (R155). -/
theorem feedRun_eq {t : State} (ht : t.proving = s.proving) :
    feedRun (feedOf s p) (sampleProposed f e v r p s).proving t =
      setProving (runFed (sumsOf f e v r s.proving p) s.proving p) t := by
  have hvolume : (sampleIncrements f e v r).volume =
      (volumeIncrement e v r.velocity (f.timeStamp - r.velocityTime)).1 := by
    unfold sampleIncrements
    split <;> rfl
  have hfedVolume (hfed : isFed s.proving p) :
      (sampleProposed f e v r p s).proving = (sumsOf f e v r s.proving p).fed := by
    rw [sampleProposed, proposeSums_eq, hvolume]
    simp only [fedSum, if_pos hfed]
    rfl
  obtain ⟨hfed, hfeed⟩ | ⟨hfed, hp, hfeed⟩ | ⟨hfed, hp, hfeed⟩ := feedOf_cases s p
  · rw [hfeed, runFed, if_neg hfed, setProving_self ht]
    rfl
  · rw [hfeed, runFed, if_pos hfed, if_pos hp, hfedVolume hfed, ← ht]
    rfl
  · rw [hfeed, runFed, if_pos hfed, if_neg hp, hfedVolume hfed, ← ht]
    rfl

end Sums

end Sys2Proof.Machine.Classification
end

section
/-! SUPPORT. A sample's accumulation case by case (R122 to R124). -/
namespace Sys2Proof.Machine.Classification
open Sys2Proof.Machine.SampleFrames

/-- An increment whose sums raise no potent kind: it is skipped for a NaN, and else added (R98, R105, R124). -/
theorem incrementVelocity_eq {w : FrameWork} {wk : SampleWork} {e : PointEntry} {p : Fin 16} {v : F64} {s : State}
    {r : PointRecord} (hr : s.engine.points.get p = r)
    (hfresh : (if wk.velocityFresh then some wk.concentration else none) =
      if isFresh e w.item r then some (concentrationOf e r.density).1 else none) :
    incrementVelocity w wk e p v s =
      let x := sumsOf w.item e v r s.proving p
      let flagged := addSticky (x.kinds.setWidth 8) r
      if potent x.kinds w.potency then abandonSample p .velocity w.item .integration x.kinds s
      else if x.tested.any f64IsNaN then skipNaN p (setPoint p flagged s)
      else setProving (runFed x s.proving p)
        (setPoint p (storeVelocity v w.item.timeStamp (summedRecord w.item e x flagged)) s) := by
  have hnan : proposedNaN (sampleIncrements w.item e v r) (sampleProposed w.item e v r p s) =
      (sumsOf w.item e v r s.proving p).tested.any f64IsNaN := by
    rw [Bool.eq_iff_iff, sampleProposed_nan, List.any_eq_true]
  have hmodel : incrementVelocity w wk e p v s =
      let x := sampleProposed w.item e v r p s
      if potent x.kinds w.potency then abandonSample p .velocity w.item .integration x.kinds s
      else
        let s1 := modifyPoint p (addSticky (x.kinds.setWidth 8)) s
        if proposedNaN (sampleIncrements w.item e v r) x then skipNaN p s1
        else feedRun (feedOf s p) x.proving
          (modifyPoint p (fun r => storeVelocity v w.item.timeStamp (storeSums x r)) s1) := by
    subst hr
    simp only [incrementVelocity, hfresh]
    rfl
  rw [hmodel]
  dsimp only
  rw [hnan, sampleProposed_kinds]
  split
  · rfl
  generalize hy : (sumsOf w.item e v r s.proving p).kinds.setWidth 8 = flags
  have hs1 : modifyPoint p (addSticky flags) s = setPoint p (addSticky flags r) s := by
    rw [modifyPoint, hr]
  rw [hs1, modifyPoint_setPoint]
  split
  · rfl
  have hstore : storeSums (sampleProposed w.item e v r p s) (addSticky flags r) =
      summedRecord w.item e (sumsOf w.item e v r s.proving p) (addSticky flags r) :=
    storeSums_eq w.item e v (addSticky flags r) p s
  rw [hstore]
  exact feedRun_eq w.item e v r p s rfl

section Sample

variable {f : FrameItem} {rest : List WorkItem} {l : LookupResult} {e : PointEntry} {v : F64} {s : State}

/-- The point's record as a sample comes to its accumulation: its condition mode applied and the flags of the first
check. -/
def sampleRecord (f : FrameItem) (l : LookupResult) (e : PointEntry) (v : F64) (s : State) : PointRecord :=
  let old := s.engine.points.get l.action.target
  { modeApplied (secondOf f l e v s) old with sticky := stickyAfter f l.action.role e old v }

/-- Before its accumulation a sample changes the conditions, HOLD and the flags alone. -/
theorem sampleRecord_eq : sampleRecord f l e v s =
    { s.engine.points.get l.action.target with
      conditions := (sampleRecord f l e v s).conditions
      hold := (sampleRecord f l e v s).hold
      sticky := stickyAfter f l.action.role e (s.engine.points.get l.action.target) v } := by
  unfold sampleRecord
  dsimp only
  rw [modeApplied_frame]

theorem sampleRecord_window : (sampleRecord f l e v s).window = (s.engine.points.get l.action.target).window := by
  rw [sampleRecord_eq]

theorem sampleRecord_sampleCount :
    (sampleRecord f l e v s).sampleCount = (s.engine.points.get l.action.target).sampleCount := by
  rw [sampleRecord_eq]

theorem sampleRecord_baseFlag : (sampleRecord f l e v s).baseFlag = (s.engine.points.get l.action.target).baseFlag := by
  rw [sampleRecord_eq]

theorem sampleRecord_velocityTime :
    (sampleRecord f l e v s).velocityTime = (s.engine.points.get l.action.target).velocityTime := by
  rw [sampleRecord_eq]

theorem sampleRecord_fresh :
    isFresh e f (sampleRecord f l e v s) ↔ isFresh e f (s.engine.points.get l.action.target) := by
  rw [sampleRecord_eq]

/-- The sums of an increment do not look at the conditions, HOLD or the flags. -/
theorem sumsOf_sampleRecord (run : ProvingState) (p : Fin 16) :
    sumsOf f e v (sampleRecord f l e v s) run p = sumsOf f e v (s.engine.points.get l.action.target) run p := by
  rw [sampleRecord_eq]
  rfl

theorem sampleState_point :
    (sampleState f rest l e v s).engine.points.get l.action.target = sampleRecord f l e v s := by
  exact (upd_get _ _ _ _).trans (if_pos rfl)

theorem sampleState_pointEntries : (sampleState f rest l e v s).engine.pointEntries = s.engine.pointEntries := by
  have h : (sampleState f rest l e v s).engine.pointEntries =
      (matchRaised (secondOf f l e v s) (lookedUp f rest l e v s)).engine.pointEntries := rfl
  rw [h, matchRaised_eq]
  dsimp only
  rw [lookedUp_engine, frameTaken_engine]

theorem sampleState_enabled (h : ComesToLookup f rest l e v s) :
    (sampleState f rest l e v s).pointEnabled l.action.target = true := by
  obtain ⟨⟨-, -, -, -, -, he, hen⟩, -, -⟩ := h
  rw [State.pointEnabled, sampleState_pointEntries, he]
  exact hen

theorem sampleState_proving : (sampleState f rest l e v s).proving = s.proving := by
  have h : (sampleState f rest l e v s).proving =
      (matchRaised (secondOf f l e v s) (lookedUp f rest l e v s)).proving := rfl
  rw [h, matchRaised_eq]
  exact lookedUp_proving f rest l e v s

theorem sampleWork_fresh (h : l.action.role = .velocity) :
    (if (sampleWork f l e v s).velocityFresh then some (sampleWork f l e v s).concentration else none) =
      let old := s.engine.points.get l.action.target
      if isFresh e f old then some (concentrationOf e old.density).1 else none := by
  by_cases hf : isFresh e f (s.engine.points.get l.action.target)
  · simp only [sampleWork, h, velocityQuantities_fresh v hf, if_pos hf, Option.isSome_some, if_true, Option.getD_some]
  · simp only [sampleWork, h, velocityQuantities_stale v hf, if_neg hf, Option.isSome_none, Bool.false_eq_true, if_false]

theorem sampleWork_density (h : l.action.role = .density) :
    (sampleWork f l e v s).concentration = (concentrationOf e v).1 := by
  simp only [sampleWork, h, densityQuantities, Option.getD_some]

/-! ### Each role's accumulation leaves the point's record and the run -/

theorem accumulationLeaves_of_setPoint {new : PointRecord}
    (h : accumulate (sampledWork f l e v s) (sampleWork f l e v s) l e (sampleState f rest l e v s) =
      setPoint l.action.target new (sampleState f rest l e v s)) : AccumulationLeaves f rest l e v new s.proving s :=
  h.trans (setProving_self (s := setPoint l.action.target new (sampleState f rest l e v s)) sampleState_proving).symm

theorem accumulate_excluded (ha : (sampleAction (secondOf f l e v s)).accumulate = false) :
    let x := sampleRecord f l e v s
    AccumulationLeaves f rest l e v { x with window := { x.window with excluded := x.window.excluded + 1 } } s.proving
      s := by
  have hwk : (sampleWork f l e v s).action.accumulate = false := ha
  refine accumulationLeaves_of_setPoint ?_
  simp only [accumulate, hwk, Bool.not_false, if_true, modifyPoint, sampleState_point]

section Accumulated

variable (h : ComesToLookup f rest l e v s) (ha : (sampleAction (secondOf f l e v s)).accumulate = true)

include h ha

theorem accumulate_velocity (hrole : l.action.role = .velocity) :
    let x := sampleRecord f l e v s
    let dt := f.timeStamp - x.velocityTime
    let t := sampleState f rest l e v s
    accumulate (sampledWork f l e v s) (sampleWork f l e v s) l e t =
      if f64IsNaN v then setPoint l.action.target (skippedRecord x) t
      else if x.baseFlag = false then setPoint l.action.target (storeVelocity v f.timeStamp x) t
      else if dt = 0 ∨ e.gapLimit.toNat < dt.toNat then
        setPoint l.action.target (storeVelocity v f.timeStamp (gapRecord x)) t
      else incrementVelocity (sampledWork f l e v s) (sampleWork f l e v s) e l.action.target v t := by
  have hwk : (sampleWork f l e v s).action.accumulate = true := ha
  have hv : f.value = some v := comesToLookup_value h
  have hitem : (sampledWork f l e v s).item = f := rfl
  simp only [accumulate, hwk, Bool.not_true, Bool.false_eq_true, if_false, hrole, hv, Option.getD_some,
    accumulateVelocity, sampleState_point, skipNaN_eq (sampleState_enabled h), timeGap_eq (sampleState_enabled h),
    modifyPoint_setPoint, Bool.not_eq_true', hitem]
  simp only [modifyPoint, sampleState_point]

/-- A velocity within the gap limit of its base leaves its sums added, or is skipped for a NaN (R98, R105, R124). -/
theorem accumulate_increment (hrole : l.action.role = .velocity) (hv : f64IsNaN v = false) :
    let x := sampleRecord f l e v s
    let dt := f.timeStamp - x.velocityTime
    let y := sumsOf f e v x s.proving l.action.target
    let flagged := addSticky (y.kinds.setWidth 8) x
    x.baseFlag = true → dt ≠ 0 → dt.toNat ≤ e.gapLimit.toNat → y.kinds &&& s.inEffect.potency = 0 →
      ((∀ q ∈ y.tested, f64IsNaN q = false) → AccumulationLeaves f rest l e v
        (storeVelocity v f.timeStamp (summedRecord f e y flagged)) (runFed y s.proving l.action.target) s)
      ∧ ((∃ q ∈ y.tested, f64IsNaN q = true) → AccumulationLeaves f rest l e v (skippedRecord flagged) s.proving s) := by
  intro x dt y flagged hbase hzero hgap hkinds
  have hacc := accumulate_velocity h ha hrole
  have hdt : ¬(dt = 0 ∨ e.gapLimit.toNat < dt.toNat) := fun hn => hn.elim hzero (Nat.not_lt.mpr hgap)
  have hfresh : (if (sampleWork f l e v s).velocityFresh then some (sampleWork f l e v s).concentration else none) =
      if isFresh e f x then some (concentrationOf e x.density).1 else none := by
    rw [sampleWork_fresh hrole, show x = _ from sampleRecord_eq]
  have hpotent : ¬potent y.kinds (sampledWork f l e v s).potency = true := by
    show ¬(y.kinds &&& s.inEffect.potency != 0) = true
    simp [hkinds]
  have hinc := incrementVelocity_eq (w := sampledWork f l e v s) (v := v)
    (sampleState_point (f := f) (rest := rest)) hfresh
  rw [sampleState_proving] at hinc
  have hsums : accumulate (sampledWork f l e v s) (sampleWork f l e v s) l e (sampleState f rest l e v s) =
      if y.tested.any f64IsNaN then
        skipNaN l.action.target (setPoint l.action.target flagged (sampleState f rest l e v s))
      else setProving (runFed y s.proving l.action.target)
        (setPoint l.action.target (storeVelocity v f.timeStamp (summedRecord f e y flagged))
          (sampleState f rest l e v s)) := by
    rw [hacc, if_neg (Bool.eq_false_iff.mp hv), if_neg (ne_true_of_eq_false · hbase), if_neg hdt, hinc]
    exact if_neg hpotent
  refine ⟨fun hn => ?_, fun hn => accumulationLeaves_of_setPoint ?_⟩
  · have hany : ¬y.tested.any f64IsNaN = true := by simpa using hn
    exact hsums.trans (if_neg hany)
  · have henabled : (setPoint l.action.target flagged (sampleState f rest l e v s)).pointEnabled l.action.target = true :=
      sampleState_enabled h
    rw [hsums, if_pos (List.any_eq_true.mpr hn), skipNaN_eq henabled, setPoint_setPoint]
    congr 2
    exact (upd_get _ _ _ _).trans (if_pos rfl)

theorem accumulate_density (hrole : l.action.role = .density) :
    let x := sampleRecord f l e v s
    (f64IsNaN v = true ∨ f64IsNaN (concentrationOf e v).1 = true →
      AccumulationLeaves f rest l e v (skippedRecord x) s.proving s)
    ∧ (¬(f64IsNaN v = true ∨ f64IsNaN (concentrationOf e v).1 = true) → AccumulationLeaves f rest l e v
        (countSample { x with density := v, densityTime := f.timeStamp, densityPresent := true }) s.proving s) := by
  have hwk : (sampleWork f l e v s).action.accumulate = true := ha
  have hv : (sampledWork f l e v s).item.value = some v := comesToLookup_value h
  have hacc : accumulate (sampledWork f l e v s) (sampleWork f l e v s) l e (sampleState f rest l e v s) =
      if f64IsNaN v || f64IsNaN (concentrationOf e v).1 then skipNaN l.action.target (sampleState f rest l e v s)
      else modifyPoint l.action.target (fun r =>
        countSample { r with density := v, densityTime := f.timeStamp, densityPresent := true })
        (sampleState f rest l e v s) := by
    simp only [accumulate, hwk, Bool.not_true, Bool.false_eq_true, if_false, hrole, hv, Option.getD_some,
      sampleWork_density hrole]
    rfl
  rw [← Bool.or_eq_true]
  refine ⟨fun hn => accumulationLeaves_of_setPoint ?_, fun hn => accumulationLeaves_of_setPoint ?_⟩
  · rw [hacc, if_pos hn, skipNaN_eq (sampleState_enabled h), sampleState_point]
  · rw [hacc, if_neg hn, modifyPoint, sampleState_point]

theorem accumulate_pressure (hrole : l.action.role = .pressure) :
    let x := sampleRecord f l e v s
    (f64IsNaN v = true → AccumulationLeaves f rest l e v (skippedRecord x) s.proving s)
    ∧ (f64IsNaN v = false → AccumulationLeaves f rest l e v (countSample { x with pressure := v }) s.proving s) := by
  have hwk : (sampleWork f l e v s).action.accumulate = true := ha
  have hv : (sampledWork f l e v s).item.value = some v := comesToLookup_value h
  have hacc : accumulate (sampledWork f l e v s) (sampleWork f l e v s) l e (sampleState f rest l e v s) =
      if f64IsNaN v then skipNaN l.action.target (sampleState f rest l e v s)
      else modifyPoint l.action.target (fun r => countSample { r with pressure := v }) (sampleState f rest l e v s) := by
    simp only [accumulate, hwk, Bool.not_true, Bool.false_eq_true, if_false, hrole, hv, Option.getD_some]
  refine ⟨fun hn => accumulationLeaves_of_setPoint ?_, fun hn => accumulationLeaves_of_setPoint ?_⟩
  · rw [hacc, if_pos hn, skipNaN_eq (sampleState_enabled h), sampleState_point]
  · rw [hacc, if_neg (Bool.eq_false_iff.mp hn), modifyPoint, sampleState_point]

end Accumulated

end Sample

end Sys2Proof.Machine.Classification
end

section
/-! The statement about the accumulation of samples. -/
namespace Sys2Proof.Machine.Classification
open Sys2Proof.Machine.SampleFrames

/-- Without a match, or with one of accumulate YES, the action accumulates (R75). -/
theorem sampleAction_accumulate {f : FrameItem} {l : LookupResult} {e : PointEntry} {v : F64} {s : State}
    (h : ∀ r, secondOf f l e v s = some r → r.action.accumulate = true) :
    (sampleAction (secondOf f l e v s)).accumulate = true := by
  cases hr : secondOf f l e v s with
  | none => rfl
  | some r => exact h r hr

/-- Settles O39: the accumulation by role and by the second lookup's action, the report behind it. -/
theorem velocitySampleAccumulated : Obligations.VelocitySampleAccumulated := by
  refine ⟨?velocity, ?others⟩
  case velocity =>
    intro s f rest l e v hacc p old seen dt sticky stored leaves
    obtain ⟨h, hrole, hroom, hyes⟩ := hacc
    have ha := sampleAction_accumulate hyes
    have hrecord : sampleRecord f l e v s = { seen with sticky := sticky } := by
      simp only [sampleRecord, hrole]
      rfl
    have hmodel := accumulate_velocity h ha hrole
    have hsums := accumulate_increment h ha hrole
    have hfresh : decide (isFresh e f (sampleRecord f l e v s)) = decide (isFresh e f old) :=
      decide_eq_decide.mpr sampleRecord_fresh
    dsimp only at hmodel hsums
    rw [sampleRecord_baseFlag, sampleRecord_velocityTime] at hmodel hsums
    rw [sumsOf_sampleRecord] at hsums
    rw [hrecord] at hmodel hsums hfresh
    clear_value seen sticky
    refine ⟨fun hv => ?_, fun hv hb => ?_, fun hv hb hgap => ?_, ?_⟩
    · exact leavesRecord h hroom (accumulationLeaves_of_setPoint (hmodel.trans (if_pos hv)))
    · rw [if_neg (Bool.eq_false_iff.mp hv), if_pos hb] at hmodel
      exact leavesRecord h hroom (accumulationLeaves_of_setPoint hmodel)
    · rw [if_neg (Bool.eq_false_iff.mp hv), if_neg (ne_false_of_eq_true hb), if_pos hgap] at hmodel
      exact leavesRecord h hroom (accumulationLeaves_of_setPoint hmodel)
    · intro hv hb hzero hgap x hkinds flags
      obtain ⟨hadds, hskips⟩ := hsums hv hb hzero hgap hkinds
      refine ⟨fun hn => ?_, fun hn => leavesRecord h hroom (hskips hn)⟩
      rw [← hfresh]
      exact leavesRecord h hroom (hadds hn)
  case others =>
    intro s f rest l e v p old seen sticky counted skipped leaves
    have hwindow : old.window = seen.window := (sampleRecord_window (f := f) (e := e) (v := v)).symm
    have hcount : old.sampleCount = seen.sampleCount := (sampleRecord_sampleCount (f := f) (e := e) (v := v)).symm
    have hcounted : counted = countSample (sampleRecord f l e v s) := by
      simp only [counted, hwindow, hcount]
      rfl
    refine ⟨?density, ?pressure, ?excluded, ?waits⟩
    case density =>
      rintro ⟨h, hrole, hroom, hyes⟩ noNumber
      obtain ⟨hskip, hcount⟩ := accumulate_density h (sampleAction_accumulate hyes) hrole
      refine ⟨fun hn => ?_, fun hn => leavesRecord h hroom (hskip hn)⟩
      rw [hcounted]
      exact leavesRecord h hroom (hcount hn)
    case pressure =>
      rintro ⟨h, hrole, hroom, hyes⟩
      obtain ⟨hskip, hcount⟩ := accumulate_pressure h (sampleAction_accumulate hyes) hrole
      refine ⟨fun hn => ?_, fun hn => leavesRecord h hroom (hskip hn)⟩
      rw [hcounted]
      exact leavesRecord h hroom (hcount hn)
    case excluded =>
      intro r h hroom hr hno
      have ha : (sampleAction (secondOf f l e v s)).accumulate = false := by
        rw [hr]
        exact hno
      rw [hwindow]
      exact leavesRecord h hroom (accumulate_excluded ha)
    case waits =>
      intro h hroom looked
      have hpoints : looked.engine.points = s.engine.points := lookedUp_points f rest l e v s
      rw [exec_takeFrameItem (comesToLookup_front h), takeFrame_sample_waits h hroom, ← hpoints]
      change ∃ j, Host.Outcome.next (suspend _ _ (setJob _ (setPoint p { old with sticky := sticky } looked))) = _
      clear_value looked old sticky
      exact ⟨_, rfl⟩

end Sys2Proof.Machine.Classification
end

section
/-! SUPPORT. Encodings of the two formats as integers: the number of an encoding grows with its key, a sign and the
encoding without it (section 1.6, R70). -/
namespace Sys2Proof.Machine.Arithmetic

/-! ### The magnitudes, in smallest units -/

/-- How many smallest units the encoding `c` without its sign stands for in the format with `frac` fraction bits; from the
encoding of infinity on, what it would stand for if the exponent range went on (R90, OVERFLOW). -/
def magnitudeUnits (frac c : ℕ) : ℕ :=
  (c % 2 ^ frac + if c / 2 ^ frac = 0 then 0 else 2 ^ frac) * 2 ^ (c / 2 ^ frac - 1)

@[simp] theorem magnitudeUnits_zero (frac : ℕ) : magnitudeUnits frac 0 = 0 := by simp [magnitudeUnits]

theorem magnitudeUnits_subnormal {frac c : ℕ} (h : c < 2 ^ frac) : magnitudeUnits frac c = c := by
  simp [magnitudeUnits, Nat.div_eq_of_lt h, Nat.mod_eq_of_lt h]

theorem magnitudeUnits_normal {frac f : ℕ} (e : ℕ) (h : f < 2 ^ frac) :
    magnitudeUnits frac (f + (e + 1) * 2 ^ frac) = (f + 2 ^ frac) * 2 ^ e := by
  have hdiv : (f + (e + 1) * 2 ^ frac) / 2 ^ frac = e + 1 := by
    rw [Nat.add_mul_div_right _ _ (by positivity), Nat.div_eq_of_lt h, zero_add]
  have hmod : (f + (e + 1) * 2 ^ frac) % 2 ^ frac = f := by rw [Nat.add_mul_mod_self_right, Nat.mod_eq_of_lt h]
  simp [magnitudeUnits, hdiv, hmod]

/-- A significand and an exponent add up to an encoding, also where the significand carries into the exponent. -/
theorem magnitudeUnits_encode {frac m j : ℕ} (hm : m ≤ 2 ^ (frac + 1)) (hj : j = 0 ∨ 2 ^ frac ≤ m) :
    magnitudeUnits frac (m + j * 2 ^ frac) = m * 2 ^ j := by
  have hpos : 0 < 2 ^ frac := by positivity
  rw [pow_succ] at hm
  obtain hsub | hnormal := Nat.lt_or_ge m (2 ^ frac)
  · obtain rfl : j = 0 := by omega
    simp [magnitudeUnits_subnormal hsub]
  obtain hlt | rfl : m < 2 ^ frac * 2 ∨ m = 2 ^ frac * 2 := by omega
  · obtain ⟨f, rfl⟩ := Nat.exists_eq_add_of_le' hnormal
    have := magnitudeUnits_normal j (f := f) (frac := frac) (by omega)
    rw [← this]
    congr 1
    ring
  · have := magnitudeUnits_normal (j + 1) hpos
    calc magnitudeUnits frac (2 ^ frac * 2 + j * 2 ^ frac) = magnitudeUnits frac (0 + (j + 1 + 1) * 2 ^ frac) := by
          congr 1
          ring
      _ = 2 ^ frac * 2 * 2 ^ j := by rw [this]; ring

theorem exists_encode (frac c : ℕ) :
    ∃ m j, m < 2 ^ (frac + 1) ∧ (j = 0 ∨ 2 ^ frac ≤ m) ∧ c = m + j * 2 ^ frac := by
  have hpos : 0 < 2 ^ frac := by positivity
  have hsplit := Nat.div_add_mod' c (2 ^ frac)
  have hmod := Nat.mod_lt c hpos
  rw [pow_succ]
  cases he : c / 2 ^ frac with
  | zero =>
    rw [he] at hsplit
    exact ⟨c, 0, by omega, .inl rfl, by omega⟩
  | succ e =>
    rw [he, Nat.succ_mul] at hsplit
    exact ⟨c % 2 ^ frac + 2 ^ frac, e, by omega, .inr (by omega), by omega⟩

theorem magnitudeUnits_strictMono (frac : ℕ) : StrictMono (magnitudeUnits frac) := by
  refine strictMono_nat_of_lt_succ fun c => ?_
  obtain ⟨m, j, hm, hj, rfl⟩ := exists_encode frac c
  have hnext : m + j * 2 ^ frac + 1 = m + 1 + j * 2 ^ frac := by ring
  rw [hnext, magnitudeUnits_encode hm.le hj, magnitudeUnits_encode hm (by omega)]
  exact Nat.mul_lt_mul_of_pos_right (Nat.lt_succ_self m) (by positivity)

/-! ### The signed numbers, in smallest units -/

/-- The smallest units of the encoding with key `i`: its sign, and its magnitude without the sign. -/
def units (frac : ℕ) (i : ℤ) : ℤ := i.sign * magnitudeUnits frac i.natAbs

@[simp] theorem units_zero (frac : ℕ) : units frac 0 = 0 := by simp [units]

@[simp] theorem units_neg (frac : ℕ) (i : ℤ) : units frac (-i) = -units frac i := by simp [units]

@[simp] theorem units_natCast (frac c : ℕ) : units frac c = magnitudeUnits frac c := by
  cases c with
  | zero => simp
  | succ c =>
    have : ((c + 1 : ℕ) : ℤ).sign = 1 := Int.sign_eq_one_of_pos (by omega)
    rw [units, this, one_mul, Int.natAbs_natCast]

theorem units_strictMono (frac : ℕ) : StrictMono (units frac) := by
  refine strictMono_of_odd_strictMonoOn_nonneg (units_neg frac) fun i hi j hj hij => ?_
  obtain ⟨c, rfl⟩ := Int.eq_ofNat_of_zero_le (Set.mem_Ici.mp hi)
  obtain ⟨d, rfl⟩ := Int.eq_ofNat_of_zero_le (Set.mem_Ici.mp hj)
  simpa using magnitudeUnits_strictMono frac (Int.ofNat_lt.mp hij)

/-- The sign of an encoding as a factor. -/
def signed (neg : Bool) : ℤ := if neg then -1 else 1

@[simp] theorem signed_true : signed true = -1 := rfl
@[simp] theorem signed_false : signed false = 1 := rfl

@[simp] theorem units_signed (frac : ℕ) (neg : Bool) (i : ℤ) :
    units frac (signed neg * i) = signed neg * units frac i := by
  cases neg <;> simp

/-! ### The fields of a binary64 encoding -/

/-- The encoding without its sign. -/
def code64 (x : F64) : ℕ := x.toNat % 2 ^ 63

/-- The encoding of an infinity without its sign. -/
def infinite64 : ℕ := 2047 * 2 ^ 52

theorem f64Key_eq (x : F64) : f64Key x = signed (f64Neg x) * code64 x := by
  unfold f64Key code64
  cases f64Neg x <;> simp

theorem toNat_eq64 (x : F64) : x.toNat = code64 x + (f64Neg x).toNat * 2 ^ 63 := by
  have := x.isLt
  unfold code64 f64Neg
  rw [BitVec.msb_eq_decide]
  by_cases h : 2 ^ 63 ≤ x.toNat
  · simp only [h, Nat.add_one_sub_one, decide_true, Bool.toNat_true]
    omega
  · simp only [h, Nat.add_one_sub_one, decide_false, Bool.toNat_false]
    omega

/-- The sign and the rest make up the encoding. -/
theorem f64_ext {x y : F64} (hs : f64Neg x = f64Neg y) (hc : code64 x = code64 y) : x = y :=
  BitVec.eq_of_toNat_eq (by rw [toNat_eq64, toNat_eq64 y, hs, hc])

theorem f64Neg_eq_getLsbD (x : F64) : x.getLsbD 63 = f64Neg x := by
  rw [f64Neg, BitVec.msb_eq_getLsbD_last]

theorem f64Exp_eq_code (x : F64) : f64Exp x = code64 x / 2 ^ 52 := by
  unfold f64Exp code64
  omega

theorem f64Frac_eq_code (x : F64) : f64Frac x = code64 x % 2 ^ 52 := by
  unfold f64Frac code64
  omega

theorem extract_exponent64 (x : F64) : (x.extractLsb' 52 11).toNat = f64Exp x := by
  simp [f64Exp, BitVec.extractLsb'_toNat, Nat.shiftRight_eq_div_pow]

theorem extract_fraction64 (x : F64) : (x.extractLsb' 0 52).toNat = f64Frac x := by
  simp [f64Frac, BitVec.extractLsb'_toNat]

theorem extract_fraction64_ne_zero (x : F64) : x.extractLsb' 0 52 ≠ 0 ↔ f64Frac x ≠ 0 := by
  rw [← extract_fraction64, ne_eq, ← BitVec.toNat_inj]
  rfl

theorem extract_subnormal64 (x : F64) :
    decide ((x.extractLsb' 52 11).toNat = 0 ∧ x.extractLsb' 0 52 ≠ 0) = f64IsSubnormal x := by
  rw [Bool.eq_iff_iff, decide_eq_true_eq, extract_exponent64, extract_fraction64_ne_zero]
  simp [f64IsSubnormal]

theorem getLsbD_zero64 (x : F64) : x.getLsbD 0 = false ↔ f64Key x % 2 = 0 := by
  have hbit : x.getLsbD 0 = decide (code64 x % 2 = 1) := by
    simp only [BitVec.getLsbD, Nat.testBit_zero, code64]
    congr 1
    simp only [eq_iff_iff]
    omega
  rw [hbit, f64Key_eq, decide_eq_false_iff_not]
  cases f64Neg x
  · rw [signed_false]
    omega
  · rw [signed_true]
    omega

/-! ### The kinds of binary64 encodings, by the encoding without its sign -/

theorem code64_lt (x : F64) : code64 x < 2 ^ 63 := Nat.mod_lt _ (by positivity)

theorem f64IsNaN_iff (x : F64) : f64IsNaN x = true ↔ infinite64 < code64 x := by
  have := code64_lt x
  simp only [f64IsNaN, f64Exp_eq_code, f64Frac_eq_code, Bool.and_eq_true, beq_iff_eq, bne_iff_ne, infinite64]
  omega

theorem f64IsInf_iff (x : F64) : f64IsInf x = true ↔ code64 x = infinite64 := by
  simp only [f64IsInf, f64Exp_eq_code, f64Frac_eq_code, Bool.and_eq_true, beq_iff_eq, infinite64]
  omega

theorem f64IsZero_iff (x : F64) : f64IsZero x = true ↔ code64 x = 0 := by
  simp only [f64IsZero, f64Exp_eq_code, f64Frac_eq_code, Bool.and_eq_true, beq_iff_eq]
  omega

theorem isFinite64_iff (x : F64) : isFinite64 x ↔ code64 x < infinite64 := by
  have := code64_lt x
  rw [isFinite64, extract_exponent64, f64Exp_eq_code, infinite64]
  omega

theorem isNaN64_iff (x : F64) : isNaN64 x ↔ infinite64 < code64 x := by
  have := code64_lt x
  rw [isNaN64, extract_exponent64, extract_fraction64_ne_zero, f64Exp_eq_code, f64Frac_eq_code, infinite64]
  omega

theorem eq_infinity64_iff (x : F64) (b : Bool) : x = infinity64 b ↔ code64 x = infinite64 ∧ f64Neg x = b := by
  have hneg : f64Neg (infinity64 b) = b := by cases b <;> rfl
  have hcode : code64 (infinity64 b) = infinite64 := by cases b <;> rfl
  constructor
  · rintro rfl
    exact ⟨hcode, hneg⟩
  · rintro ⟨hc, hs⟩
    exact f64_ext (hs.trans hneg.symm) (hc.trans hcode.symm)

theorem eq_zero64_iff (x : F64) (b : Bool) : x = zero64 b ↔ code64 x = 0 ∧ f64Neg x = b := by
  have hneg : f64Neg (zero64 b) = b := by cases b <;> rfl
  have hcode : code64 (zero64 b) = 0 := by cases b <;> rfl
  constructor
  · rintro rfl
    exact ⟨hcode, hneg⟩
  · rintro ⟨hc, hs⟩
    exact f64_ext (hs.trans hneg.symm) (hc.trans hcode.symm)

theorem isZero_iff (x : F64) : isZero x ↔ code64 x = 0 := by simp [isZero, eq_zero64_iff]

/-! ### The number of a binary64 encoding -/

theorem magnitudeUnits_code64 (x : F64) : magnitudeUnits 52 (code64 x) = f64Mant x * 2 ^ f64Scale x := by
  simp only [magnitudeUnits, f64Mant, f64Scale, f64Exp_eq_code, f64Frac_eq_code]
  split <;> simp_all

/-- An encoding stands for as many smallest units as its key tells (section 1.6). -/
theorem value64_eq_units (x : F64) : value64 x = units 52 (f64Key x) / 2 ^ 1074 := by
  have hmant : (f64Frac x + if f64Exp x = 0 then 0 else 2 ^ 52) = f64Mant x := by
    unfold f64Mant
    split <;> rfl
  rw [value64, f64Neg_eq_getLsbD, f64Key_eq, units_signed, units_natCast, magnitudeUnits_code64]
  simp only [extract_exponent64, extract_fraction64, hmant]
  cases f64Neg x <;> simp [f64Scale, neg_div]

end Sys2Proof.Machine.Arithmetic
end

section
/-! SUPPORT. The rounding of a magnitude finds the nearest number, of two equally near ones that with an even encoding, and
tells whether it overflowed, lay below the smallest normal number or is inexact (R88, R90). -/
namespace Sys2Proof.Machine.Arithmetic

/-! ### The nearest encoding -/

/-- The key `i` is that of a number nearest to `a` smallest units, and an even one at a tie; the exponent has no upper
bound. -/
structure Nearest (frac : ℕ) (a : ℝ) (i : ℤ) : Prop where
  least : ∀ j, |(units frac i : ℝ) - a| ≤ |(units frac j : ℝ) - a|
  even_of_tie : ∀ j, |(units frac j : ℝ) - a| = |(units frac i : ℝ) - a| → j ≠ i → i % 2 = 0

theorem cast_units_le {frac : ℕ} {i j : ℤ} (h : i ≤ j) : (units frac i : ℝ) ≤ units frac j :=
  Int.cast_le.mpr ((units_strictMono frac).monotone h)

theorem cast_units_lt {frac : ℕ} {i j : ℤ} (h : i < j) : (units frac i : ℝ) < units frac j :=
  Int.cast_lt.mpr (units_strictMono frac h)

theorem Nearest.neg {frac : ℕ} {a : ℝ} {i : ℤ} (h : Nearest frac a i) : Nearest frac (-a) (-i) := by
  have habs (j : ℤ) : |(units frac j : ℝ) - -a| = |(units frac (-j) : ℝ) - a| := by
    rw [units_neg, Int.cast_neg, ← abs_neg]
    congr 1
    ring
  refine ⟨fun j => ?_, fun j hj hne => ?_⟩
  · rw [habs, habs, neg_neg]
    exact h.least (-j)
  · rw [habs, habs, neg_neg] at hj
    have := h.even_of_tie (-j) hj (by omega)
    omega

theorem Nearest.signed {frac : ℕ} {a : ℝ} {i : ℤ} (h : Nearest frac a i) (neg : Bool) :
    Nearest frac (signed neg * a) (signed neg * i) := by
  cases neg with
  | false => simpa using h
  | true => simpa using h.neg

/-- The lower neighbour is nearest up to the middle, at the middle if it is even. -/
theorem nearest_lower {frac : ℕ} {a : ℝ} {i : ℤ} (hle : units frac i ≤ a)
    (hmid : 2 * a ≤ units frac i + units frac (i + 1))
    (htie : 2 * a = units frac i + units frac (i + 1) → i % 2 = 0) : Nearest frac a i := by
  have hi : |(units frac i : ℝ) - a| = a - units frac i := by rw [abs_sub_comm, abs_of_nonneg (by linarith)]
  have hbelow {j : ℤ} (hj : j < i) : a - units frac i < |(units frac j : ℝ) - a| := by
    have := cast_units_lt (frac := frac) hj
    rw [abs_sub_comm]
    linarith [le_abs_self (a - units frac j)]
  have habove {j : ℤ} (hj : i < j) : units frac (i + 1) - a ≤ |(units frac j : ℝ) - a| := by
    have := cast_units_le (frac := frac) (Int.add_one_le_of_lt hj)
    linarith [le_abs_self ((units frac j : ℝ) - a)]
  refine ⟨fun j => ?_, fun j hj hne => ?_⟩
  · rw [hi]
    obtain hlt | rfl | hgt := lt_trichotomy j i
    · exact (hbelow hlt).le
    · exact hi.ge
    · linarith [habove hgt]
  · rw [hi] at hj
    obtain hlt | hgt := lt_or_gt_of_ne hne
    · linarith [hbelow hlt]
    · exact htie (by linarith [habove hgt])

/-- The upper neighbour is nearest from the middle on, at the middle if it is even. -/
theorem nearest_upper {frac : ℕ} {a : ℝ} {i : ℤ} (hle : a ≤ units frac (i + 1))
    (hmid : units frac i + units frac (i + 1) ≤ 2 * a)
    (htie : 2 * a = units frac i + units frac (i + 1) → (i + 1) % 2 = 0) : Nearest frac a (i + 1) := by
  have hstep : -(i + 1) + 1 = -i := by ring
  have hneg : Nearest frac (-a) (-(i + 1)) := by
    refine nearest_lower ?_ ?_ fun h => ?_
    · rw [units_neg, Int.cast_neg]
      linarith
    · rw [hstep, units_neg, units_neg, Int.cast_neg, Int.cast_neg]
      linarith
    · rw [hstep, units_neg, units_neg, Int.cast_neg, Int.cast_neg] at h
      have := htie (by linarith)
      omega
  simpa only [neg_neg] using hneg.neg

/-- The nearest key reaches an even key exactly from the middle below that on. -/
theorem Nearest.even_le_iff {frac : ℕ} {a : ℝ} {i c : ℤ} (h : Nearest frac a c) (heven : i % 2 = 0) :
    i ≤ c ↔ (units frac (i - 1) + units frac i : ℝ) ≤ 2 * a := by
  have hpred := cast_units_lt (frac := frac) (show i - 1 < i by omega)
  constructor
  · intro hic
    by_contra! hlow
    have hc := cast_units_le (frac := frac) hic
    have hleast := h.least (i - 1)
    rw [abs_of_nonneg (by linarith : (0 : ℝ) ≤ units frac c - a)] at hleast
    cases abs_cases ((units frac (i - 1) : ℝ) - a) <;> linarith
  · intro hmid
    by_contra! hci
    have hc := cast_units_le (frac := frac) (show c ≤ i - 1 by omega)
    have hleast := h.least i
    have hfar : |(units frac c : ℝ) - a| = a - units frac c := by rw [abs_sub_comm, abs_of_nonneg (by linarith)]
    have hclose : |(units frac i : ℝ) - a| ≤ a - units frac c := abs_le.mpr ⟨by linarith, by linarith⟩
    have htie := h.even_of_tie i (by linarith) (by omega)
    obtain rfl | hlt : c = i - 1 ∨ c < i - 1 := by omega
    · omega
    · have := cast_units_lt (frac := frac) hlt
      rw [hfar] at hleast
      cases abs_cases ((units frac i : ℝ) - a) <;> linarith

/-- What the nearest key says of the numbers themselves, `2 ^ b` units to one. -/
theorem Nearest.number {frac b : ℕ} {e : ℝ} {i : ℤ} (h : Nearest frac (e * 2 ^ b) i) (j : ℤ) :
    |(units frac i / 2 ^ b - e : ℝ)| ≤ |(units frac j / 2 ^ b - e : ℝ)|
    ∧ (|(units frac j / 2 ^ b - e : ℝ)| = |(units frac i / 2 ^ b - e : ℝ)| → j ≠ i → i % 2 = 0) := by
  have habs (j : ℤ) : |(units frac j / 2 ^ b - e : ℝ)| = |(units frac j : ℝ) - e * 2 ^ b| / 2 ^ b := by
    rw [← abs_of_pos (by positivity : (0 : ℝ) < 2 ^ b), ← abs_div, abs_of_pos (by positivity : (0 : ℝ) < 2 ^ b)]
    congr 1
    field_simp
  have hpos : (0 : ℝ) < 2 ^ b := by positivity
  simp only [habs]
  exact ⟨div_le_div_of_nonneg_right (h.least j) hpos.le,
    fun heq hne => h.even_of_tie j ((div_left_inj' hpos.ne').mp heq) hne⟩

/-! ### The integers that a rounding works on -/

/-- `n` is the whole part of `b`, and `sticky` says whether there is more. -/
structure Approximates (n : ℕ) (sticky : Bool) (b : ℝ) : Prop where
  le : (n : ℝ) ≤ b
  lt : b < n + 1
  sticky_iff : sticky = true ↔ b ≠ n

/-- Nothing is left of a number, whole part and more, exactly when it is zero. -/
theorem Approximates.exact_iff {n : ℕ} {sticky : Bool} {b : ℝ} (h : Approximates n sticky b) :
    (n != 0 || sticky) = false ↔ b = 0 := by
  obtain ⟨hle, -, hsticky⟩ := h
  rw [Bool.or_eq_false_iff, bne_eq_false_iff_eq, ← Bool.not_eq_true, hsticky, not_not]
  constructor
  · rintro ⟨rfl, rfl⟩
    exact Nat.cast_zero
  · rintro rfl
    have : n = 0 := by exact_mod_cast le_antisymm hle (Nat.cast_nonneg n)
    exact ⟨this, by rw [this, Nat.cast_zero]⟩

theorem approximates_self (n : ℕ) : Approximates n false n := ⟨le_rfl, by linarith, by simp⟩

/-- The exponent of the last place that is kept. -/
def quantum (frac : ℕ) (unit : ℤ) (n : ℕ) (k : ℤ) : ℤ := max unit (k + (Nat.log2 n + 1) - (frac + 1))

/-- How many digits are cut off. -/
def cutDigits (frac : ℕ) (unit : ℤ) (n : ℕ) (k : ℤ) : ℕ := (quantum frac unit n k - k).toNat

/-- The integer with as many zeros added as its last place needs. -/
def scaledUp (frac : ℕ) (unit : ℤ) (n : ℕ) (k : ℤ) : ℕ := n <<< (k - quantum frac unit n k).toNat

/-- The significand before rounding. -/
def kept (frac : ℕ) (unit : ℤ) (n : ℕ) (k : ℤ) : ℕ := scaledUp frac unit n k >>> cutDigits frac unit n k

/-- What is cut off below the significand. -/
def cut (frac : ℕ) (unit : ℤ) (n : ℕ) (k : ℤ) : ℕ := scaledUp frac unit n k % 2 ^ cutDigits frac unit n k

/-- Whether a rounding to nearest, ties to even, goes up. -/
def goesUp (whole rest digits : ℕ) (sticky : Bool) : Bool :=
  digits != 0 && (decide (2 ^ digits / 2 < rest) || (rest == 2 ^ digits / 2 && (sticky || whole % 2 == 1)))

/-- The encoding of the rounded magnitude, as if the exponent had no upper bound. -/
def roundCode (frac : ℕ) (unit : ℤ) (n : ℕ) (k : ℤ) (sticky : Bool) : ℕ :=
  kept frac unit n k + (goesUp (kept frac unit n k) (cut frac unit n k) (cutDigits frac unit n k) sticky).toNat
    + (quantum frac unit n k - unit).toNat * 2 ^ frac

theorem roundMagnitude_eq (frac : ℕ) (unit : ℤ) (maxExp n : ℕ) (k : ℤ) (sticky : Bool) :
    let code := roundCode frac unit n k sticky
    let tooBig := decide (maxExp * 2 ^ frac ≤ code)
    roundMagnitude frac unit maxExp n k sticky =
      ⟨if tooBig then maxExp * 2 ^ frac else code, tooBig, decide (k + (Nat.log2 n + 1) ≤ unit + frac),
        tooBig || cut frac unit n k != 0 || sticky⟩ := rfl

/-! ### The significand of a rounding -/

section Significand

variable {frac : ℕ} {unit : ℤ} {n : ℕ} {k : ℤ} {sticky : Bool} {b : ℝ}

theorem scaledUp_eq : scaledUp frac unit n k = n * 2 ^ (k - quantum frac unit n k).toNat := Nat.shiftLeft_eq _ _

theorem kept_eq : kept frac unit n k = scaledUp frac unit n k / 2 ^ cutDigits frac unit n k :=
  Nat.shiftRight_eq_div_pow _ _

theorem unit_le_quantum : unit ≤ quantum frac unit n k := le_max_left _ _

theorem kept_lt (frac : ℕ) (unit : ℤ) (n : ℕ) (k : ℤ) : kept frac unit n k < 2 ^ (frac + 1) := by
  rw [kept_eq, scaledUp_eq]
  refine Nat.div_lt_of_lt_mul ?_
  have hq : k + (Nat.log2 n + 1) - (frac + 1) ≤ quantum frac unit n k := le_max_right _ _
  have hexp : Nat.log2 n + 1 + (k - quantum frac unit n k).toNat ≤ cutDigits frac unit n k + (frac + 1) := by
    unfold cutDigits
    omega
  calc n * 2 ^ (k - quantum frac unit n k).toNat < 2 ^ (Nat.log2 n + 1) * 2 ^ (k - quantum frac unit n k).toNat :=
        Nat.mul_lt_mul_of_pos_right Nat.lt_log2_self (by positivity)
    _ ≤ 2 ^ cutDigits frac unit n k * 2 ^ (frac + 1) := by
        rw [← pow_add, ← pow_add]
        exact Nat.pow_le_pow_right (by norm_num) hexp

/-- Above the smallest unit the significand has all its digits. -/
theorem le_kept (hn : 0 < n) (hq : unit < quantum frac unit n k) : 2 ^ frac ≤ kept frac unit n k := by
  rw [kept_eq, scaledUp_eq, Nat.le_div_iff_mul_le (by positivity)]
  have hexp : frac + cutDigits frac unit n k = Nat.log2 n + (k - quantum frac unit n k).toNat := by
    unfold cutDigits
    unfold quantum at hq ⊢
    omega
  rw [← pow_add, hexp, pow_add]
  exact Nat.mul_le_mul_right _ (Nat.log2_self_le hn.ne')

/-- The significand and its exponent are an encoding, rounded up or not. -/
theorem units_kept (hn : 0 < n) (up : Bool) :
    magnitudeUnits frac (kept frac unit n k + up.toNat + (quantum frac unit n k - unit).toNat * 2 ^ frac)
      = (kept frac unit n k + up.toNat) * 2 ^ (quantum frac unit n k - unit).toNat := by
  refine magnitudeUnits_encode ?_ ?_
  · have := kept_lt frac unit n k
    cases up
    · exact this.le
    · exact this
  · by_cases hq : unit < quantum frac unit n k
    · exact .inr ((le_kept hn hq).trans (Nat.le_add_right _ _))
    · exact .inl (by omega)

/-- With as many digits as `sticky` asks for, at least one is cut off. -/
theorem cutDigits_pos (hs : 2 ^ (frac + 2) ≤ n) : 0 < cutDigits frac unit n k := by
  have hlog : frac + 2 ≤ Nat.log2 n :=
    (Nat.le_log2 ((Nat.two_pow_pos (frac + 2)).trans_le hs).ne').mpr hs
  have hq : k + (Nat.log2 n + 1) - (frac + 1) ≤ quantum frac unit n k := le_max_right _ _
  unfold cutDigits
  omega

/-- What was added below the last place is made up for: the exact magnitude in units of the scaled integer's last place. -/
theorem scaledUp_approximates (h : Approximates n sticky b) (hs : sticky = true → 2 ^ (frac + 2) ≤ n) :
    Approximates (scaledUp frac unit n k) sticky (b * 2 ^ (k - quantum frac unit n k).toNat) := by
  by_cases hup : (k - quantum frac unit n k).toNat = 0
  · rw [scaledUp_eq, hup]
    simpa using h
  · obtain rfl : sticky = false := by
      refine Bool.eq_false_iff.mpr fun hst => ?_
      have := cutDigits_pos (unit := unit) (k := k) (hs hst)
      unfold cutDigits at this
      omega
    have hb : b = n := by simpa using h.sticky_iff
    rw [hb, scaledUp_eq]
    exact_mod_cast approximates_self _

theorem goesUp_succ (whole rest d : ℕ) (sticky : Bool) : goesUp whole rest (d + 1) sticky = true ↔
    2 ^ d < rest ∨ rest = 2 ^ d ∧ (sticky = true ∨ whole % 2 = 1) := by
  have hhalf : 2 ^ (d + 1) / 2 = 2 ^ d := by rw [pow_succ, Nat.mul_div_cancel _ (by norm_num)]
  simp [goesUp, hhalf]

/-- The digits cut off against the middle between the significand and the next one. -/
theorem goesUp_spec {whole rest digits : ℕ} {r : ℝ} (h : Approximates rest sticky r) (hrest : rest < 2 ^ digits)
    (hs : sticky = true → 0 < digits) :
    (goesUp whole rest digits sticky = false → r / 2 ^ digits ≤ 1 / 2 ∧ (r / 2 ^ digits = 1 / 2 → whole % 2 = 0))
    ∧ (goesUp whole rest digits sticky = true → 1 / 2 ≤ r / 2 ^ digits ∧ (r / 2 ^ digits = 1 / 2 → whole % 2 = 1)) := by
  have hpos : (0 : ℝ) < 2 ^ digits := by positivity
  rw [div_le_iff₀ hpos, le_div_iff₀ hpos, div_eq_iff hpos.ne']
  obtain ⟨hle, hlt, hsticky⟩ := h
  cases digits with
  | zero =>
    obtain rfl : sticky = false := by simpa using hs
    have hr : r = 0 := by
      have : r = rest := by simpa using hsticky
      rw [this, show rest = 0 by simpa using hrest, Nat.cast_zero]
    norm_num [goesUp, hr]
  | succ d =>
    have hpow : (2 : ℝ) ^ (d + 1) = 2 * (2 ^ d : ℕ) := by push_cast; ring
    rw [← Bool.not_eq_true, goesUp_succ, hpow]
    obtain hlow | rfl | hhigh := lt_trichotomy rest (2 ^ d)
    · have hcast : (rest : ℝ) + 1 ≤ (2 ^ d : ℕ) := by exact_mod_cast hlow
      exact ⟨fun _ => ⟨by linarith, fun _ => by linarith⟩, fun hup => by omega⟩
    · refine ⟨fun hdown => ?_, fun hup => ⟨by linarith, fun htie => ?_⟩⟩
      · have hr : r = (2 ^ d : ℕ) := by
          by_contra hne
          exact hdown (.inr ⟨rfl, .inl (hsticky.mpr hne)⟩)
        exact ⟨by linarith, fun _ => by omega⟩
      · have hr : ¬sticky = true := by
          rw [hsticky, not_not]
          linarith
        simpa [hr] using hup
    · have hcast : ((2 ^ d : ℕ) : ℝ) + 1 ≤ rest := by exact_mod_cast hhigh
      exact ⟨fun hdown => absurd (.inl hhigh) hdown, fun _ => ⟨by linarith, fun _ => by linarith⟩⟩

/-- The exact magnitude lies as far above the significand as its cut digits tell. -/
theorem cut_approximates (h : Approximates n sticky b) (hs : sticky = true → 2 ^ (frac + 2) ≤ n) :
    Approximates (cut frac unit n k) sticky
      (b * 2 ^ (k - quantum frac unit n k).toNat - kept frac unit n k * 2 ^ cutDigits frac unit n k) := by
  obtain ⟨hle, hlt, hsticky⟩ := scaledUp_approximates (unit := unit) (k := k) h hs
  have hsplit : (scaledUp frac unit n k : ℝ) =
      kept frac unit n k * 2 ^ cutDigits frac unit n k + cut frac unit n k := by
    rw [kept_eq]
    exact_mod_cast (Nat.div_add_mod' _ _).symm
  refine ⟨by linarith, by linarith, hsticky.trans (not_congr ?_)⟩
  constructor <;> intro <;> linarith

/-- The exact magnitude in the units of the format, from the significand and what was cut off. -/
theorem div_unit_eq (b : ℝ) : b * 2 ^ k / 2 ^ unit =
    (kept frac unit n k + (b * 2 ^ (k - quantum frac unit n k).toNat - kept frac unit n k * 2 ^ cutDigits frac unit n k)
      / 2 ^ cutDigits frac unit n k) * 2 ^ (quantum frac unit n k - unit).toNat := by
  have hq : unit ≤ quantum frac unit n k := unit_le_quantum
  have hexp : k - unit = ((k - quantum frac unit n k).toNat : ℤ) - (cutDigits frac unit n k : ℤ)
      + ((quantum frac unit n k - unit).toNat : ℤ) := by
    unfold cutDigits
    omega
  rw [mul_div_assoc, ← zpow_sub₀ (two_ne_zero' ℝ), hexp, zpow_add₀ (two_ne_zero' ℝ), zpow_sub₀ (two_ne_zero' ℝ),
    zpow_natCast, zpow_natCast, zpow_natCast]
  field_simp
  ring

end Significand

/-! ### The rounding finds the nearest encoding -/

/-- A significand with a fraction of its last place is nearest to itself or to the next one. -/
theorem nearest_of_fraction {frac w j : ℕ} {up : Bool} {t : ℝ} (hfrac : 0 < frac) (h0 : 0 ≤ t) (h1 : t ≤ 1)
    (hunits : ∀ v : Bool, magnitudeUnits frac (w + v.toNat + j * 2 ^ frac) = (w + v.toNat) * 2 ^ j)
    (hdown : up = false → t ≤ 1 / 2 ∧ (t = 1 / 2 → w % 2 = 0))
    (hup : up = true → 1 / 2 ≤ t ∧ (t = 1 / 2 → w % 2 = 1)) :
    Nearest frac ((w + t) * 2 ^ j) (w + up.toNat + j * 2 ^ frac : ℕ) := by
  have hpos : (0 : ℝ) < 2 ^ j := by positivity
  have heven : (j * 2 ^ frac) % 2 = 0 := by
    obtain ⟨f, rfl⟩ := Nat.exists_eq_succ_of_ne_zero hfrac.ne'
    rw [Nat.pow_succ, ← mul_assoc, Nat.mul_mod_left]
  have hcode (v : Bool) : (units frac (w + v.toNat + j * 2 ^ frac : ℕ) : ℝ) = (w + v.toNat) * 2 ^ j := by
    rw [units_natCast]
    exact_mod_cast hunits v
  have hnext : ((w + 1 + j * 2 ^ frac : ℕ) : ℤ) = (w + j * 2 ^ frac : ℕ) + 1 := by
    push_cast
    ring
  have hlow : (units frac (w + j * 2 ^ frac : ℕ) : ℝ) = w * 2 ^ j := by simpa using hcode false
  have hhigh : (units frac ((w + j * 2 ^ frac : ℕ) + 1) : ℝ) = (w + 1) * 2 ^ j := by
    rw [← hnext]
    simpa using hcode true
  have htie (h : 2 * ((w + t) * 2 ^ j) = (w * 2 ^ j + (w + 1) * 2 ^ j : ℝ)) : t = 1 / 2 :=
    mul_right_cancel₀ hpos.ne' (by linarith)
  cases up with
  | false =>
    obtain ⟨hle, heq⟩ := hdown rfl
    change Nearest frac _ (w + j * 2 ^ frac : ℕ)
    refine nearest_lower ?_ ?_ fun h => ?_
    · rw [hlow]
      nlinarith
    · rw [hlow, hhigh]
      nlinarith
    · rw [hlow, hhigh] at h
      have := heq (htie h)
      omega
  | true =>
    obtain ⟨hle, heq⟩ := hup rfl
    change Nearest frac _ (w + 1 + j * 2 ^ frac : ℕ)
    rw [hnext]
    refine nearest_upper ?_ ?_ fun h => ?_
    · rw [hhigh]
      nlinarith
    · rw [hlow, hhigh]
      nlinarith
    · rw [hlow, hhigh] at h
      have := heq (htie h)
      omega

section Rounding

variable {frac : ℕ} {unit : ℤ} {n : ℕ} {k : ℤ} {sticky : Bool} {b : ℝ}

/-- R88: the magnitude `b * 2 ^ k`, that `n` is the whole part of, is rounded to nearest with ties to even. -/
theorem roundCode_nearest (hfrac : 0 < frac) (hn : 0 < n) (h : Approximates n sticky b)
    (hs : sticky = true → 2 ^ (frac + 2) ≤ n) :
    Nearest frac (b * 2 ^ k / 2 ^ unit) (roundCode frac unit n k sticky) := by
  have hcut := cut_approximates (unit := unit) (k := k) h hs
  have hlt : cut frac unit n k < 2 ^ cutDigits frac unit n k := Nat.mod_lt _ (by positivity)
  have hfull : (cut frac unit n k : ℝ) + 1 ≤ 2 ^ cutDigits frac unit n k := by exact_mod_cast hlt
  obtain ⟨hdown, hup⟩ := goesUp_spec (whole := kept frac unit n k) hcut hlt fun hst => cutDigits_pos (hs hst)
  rw [div_unit_eq]
  exact nearest_of_fraction hfrac (div_nonneg ((Nat.cast_nonneg _).trans hcut.le) (by positivity))
    (div_le_one_of_le₀ (hcut.lt.le.trans hfull) (by positivity)) (units_kept hn) hdown hup

/-- Nothing is cut off exactly when the rounded magnitude is the exact one (R90, INEXACT). -/
theorem roundCode_inexact_iff (hn : 0 < n) (h : Approximates n sticky b) (hs : sticky = true → 2 ^ (frac + 2) ≤ n) :
    (cut frac unit n k != 0 || sticky) = true ↔
      (units frac (roundCode frac unit n k sticky) : ℝ) ≠ b * 2 ^ k / 2 ^ unit := by
  have hcut := cut_approximates (unit := unit) (k := k) h hs
  have hlt : cut frac unit n k < 2 ^ cutDigits frac unit n k := Nat.mod_lt _ (by positivity)
  have hfull : (cut frac unit n k : ℝ) + 1 ≤ 2 ^ cutDigits frac unit n k := by exact_mod_cast hlt
  obtain ⟨hdown, hup⟩ := goesUp_spec (whole := kept frac unit n k) hcut hlt fun hst => cutDigits_pos (hs hst)
  have hpos : (0 : ℝ) < 2 ^ cutDigits frac unit n k := by positivity
  have hrest := hcut.exact_iff
  have hone := (div_lt_one hpos).mpr (hcut.lt.trans_le hfull)
  rw [div_unit_eq (n := n) (frac := frac), units_natCast, roundCode, units_kept hn]
  generalize b * 2 ^ (k - quantum frac unit n k).toNat - kept frac unit n k * 2 ^ cutDigits frac unit n k = r at *
  rw [← not_iff_not, ne_eq, not_not, Bool.not_eq_true, hrest]
  push_cast
  rw [mul_left_inj' (by positivity), add_right_inj]
  cases hgo : goesUp (kept frac unit n k) (cut frac unit n k) (cutDigits frac unit n k) sticky with
  | false => rw [Bool.toNat_false, Nat.cast_zero, eq_comm (a := 0), div_eq_zero_iff, or_iff_left hpos.ne']
  | true =>
    have := (hup hgo).1
    simp only [Bool.toNat_true, Nat.cast_one]
    exact ⟨fun h => by norm_num [h] at this, fun h => by linarith⟩

/-- The bounds of the magnitude by the length of `n` (R90, UNDERFLOW). -/
theorem tiny_iff (hn : 0 < n) (h : Approximates n sticky b) :
    k + (Nat.log2 n + 1) ≤ unit + frac ↔ b * 2 ^ k / 2 ^ unit < 2 ^ frac := by
  have hlow : (2 : ℝ) ^ (Nat.log2 n : ℤ) ≤ b := by
    refine le_trans ?_ h.le
    rw [zpow_natCast]
    exact_mod_cast Nat.log2_self_le hn.ne'
  have hhigh : b < (2 : ℝ) ^ (Nat.log2 n + 1 : ℤ) := by
    refine h.lt.trans_le ?_
    have : n + 1 ≤ 2 ^ (Nat.log2 n + 1) := Nat.lt_log2_self
    exact_mod_cast this
  have hk : (0 : ℝ) < 2 ^ k := by positivity
  rw [div_lt_iff₀ (by positivity), ← zpow_natCast, ← zpow_add₀ (two_ne_zero' ℝ)]
  constructor
  · intro hle
    calc b * 2 ^ k < 2 ^ (Nat.log2 n + 1 : ℤ) * 2 ^ k := by gcongr
      _ = 2 ^ (k + (Nat.log2 n + 1)) := by rw [← zpow_add₀ (two_ne_zero' ℝ), add_comm]
      _ ≤ 2 ^ (frac + unit) := zpow_le_zpow_right₀ one_le_two (by omega)
  · intro hlt
    have : (2 : ℝ) ^ (Nat.log2 n + k : ℤ) < 2 ^ (frac + unit) := by
      rw [zpow_add₀ (two_ne_zero' ℝ)]
      exact (by gcongr : _ ≤ b * 2 ^ k).trans_lt hlt
    have := (zpow_lt_zpow_iff_right₀ one_lt_two).mp this
    omega

end Rounding

end Sys2Proof.Machine.Arithmetic
end

section
/-! SUPPORT. A rounded magnitude in numbers, and a rounded binary64 result: what its value and its kinds are (R88, R90). -/
namespace Sys2Proof.Machine.Arithmetic

/-! ### The bound of the finite numbers -/

/-- A magnitude overflows from the middle between the largest finite number and the next one on. -/
theorem Nearest.overflow_iff {frac g bias : ℕ} {a : ℝ} {c : ℕ} (h : Nearest frac (a * 2 ^ bias) c) (hfrac : 0 < frac) :
    (g + bias + 3) * 2 ^ frac ≤ c ↔ (2 : ℝ) ^ (g + frac + 2) - 2 ^ g ≤ a := by
  have hsplit : (g + bias + 3) * 2 ^ frac = 2 ^ (frac + 1) + (g + bias + 1) * 2 ^ frac := by ring
  have hone : 1 ≤ 2 ^ (frac + 1) := Nat.one_le_two_pow
  have heven : (((g + bias + 3) * 2 ^ frac : ℕ) : ℤ) % 2 = 0 := by
    have : 2 ∣ (g + bias + 3) * 2 ^ frac := (dvd_pow_self 2 hfrac.ne').mul_left _
    omega
  have hpred : (((g + bias + 3) * 2 ^ frac : ℕ) : ℤ) - 1 = (2 ^ (frac + 1) - 1 + (g + bias + 1) * 2 ^ frac : ℕ) := by
    rw [hsplit]
    push_cast [hone]
    ring
  have hfull : 2 ^ frac ≤ 2 ^ (frac + 1) - 1 := by
    have : 0 < 2 ^ frac := by positivity
    omega
  have hsum : ((((2 ^ (frac + 1) - 1) * 2 ^ (g + bias + 1) : ℕ) : ℤ) : ℝ) + ((2 ^ (frac + 1) * 2 ^ (g + bias + 1) : ℕ) : ℤ)
      = ((2 : ℝ) ^ (g + frac + 2) - 2 ^ g) * (2 * 2 ^ bias) := by
    push_cast [hone]
    ring
  have hbias : (0 : ℝ) < 2 * 2 ^ bias := by positivity
  have htwice : 2 * (a * 2 ^ bias) = a * (2 * 2 ^ bias) := by ring
  rw [← Int.ofNat_le, h.even_le_iff heven, hpred, hsplit, units_natCast, units_natCast,
    magnitudeUnits_encode (Nat.sub_le _ _) (.inr hfull), magnitudeUnits_encode le_rfl (.inr (by omega)), hsum, htwice,
    mul_le_mul_iff_left₀ hbias]

/-! ### The rounded magnitude -/

section Magnitude

variable {frac g bias maxExp n : ℕ} {unit k : ℤ} {sticky : Bool} {b : ℝ}

theorem div_unit_eq_mul (hunit : unit = -(bias : ℤ)) (a : ℝ) : a / 2 ^ unit = a * 2 ^ bias := by
  rw [hunit, zpow_neg, div_inv_eq_mul, zpow_natCast]

/-- R90: from half a unit above the largest finite number on the magnitude becomes the infinite one, inexactly. -/
theorem roundMagnitude_overflow (hunit : unit = -(bias : ℤ)) (hmax : maxExp = g + bias + 3) (hfrac : 0 < frac) (hn : 0 < n)
    (h : Approximates n sticky b) (hs : sticky = true → 2 ^ (frac + 2) ≤ n)
    (hbig : (2 : ℝ) ^ (g + frac + 2) - 2 ^ g ≤ b * 2 ^ k) :
    let r := roundMagnitude frac unit maxExp n k sticky
    r.magnitude = maxExp * 2 ^ frac ∧ r.overflow = true ∧ r.inexact = true := by
  have hnear := roundCode_nearest (unit := unit) (k := k) hfrac hn h hs
  rw [div_unit_eq_mul hunit] at hnear
  have htoo := (hnear.overflow_iff (g := g) hfrac).mpr hbig
  rw [← hmax] at htoo
  simp [roundMagnitude_eq, htoo]

/-- R88, R90: below that bound the magnitude is rounded to the nearest number, inexactly if that is another one. -/
theorem roundMagnitude_nearest (hunit : unit = -(bias : ℤ)) (hmax : maxExp = g + bias + 3) (hfrac : 0 < frac) (hn : 0 < n)
    (h : Approximates n sticky b) (hs : sticky = true → 2 ^ (frac + 2) ≤ n)
    (hsmall : b * 2 ^ k < (2 : ℝ) ^ (g + frac + 2) - 2 ^ g) :
    let r := roundMagnitude frac unit maxExp n k sticky
    r.magnitude < maxExp * 2 ^ frac ∧ r.overflow = false ∧ Nearest frac (b * 2 ^ k * 2 ^ bias) r.magnitude
      ∧ (r.inexact = true ↔ (units frac r.magnitude : ℝ) ≠ b * 2 ^ k * 2 ^ bias)
      ∧ (r.tiny = true ↔ b * 2 ^ k * 2 ^ bias < 2 ^ frac) := by
  have hnear := roundCode_nearest (unit := unit) (k := k) hfrac hn h hs
  have hinexact := roundCode_inexact_iff (unit := unit) (k := k) hn h hs
  have htiny := tiny_iff (frac := frac) (unit := unit) (k := k) hn h
  rw [div_unit_eq_mul hunit] at hnear hinexact htiny
  have htoo : ¬maxExp * 2 ^ frac ≤ roundCode frac unit n k sticky := by
    rw [hmax, hnear.overflow_iff hfrac]
    exact hsmall.not_ge
  simp only [roundMagnitude_eq, htoo, decide_false, Bool.false_eq_true, if_false, Bool.false_or, decide_eq_true_eq]
  exact ⟨not_le.mp htoo, trivial, hnear, hinexact, htiny⟩

/-- An integer that fits the significand is not cut (R88). -/
theorem cut_eq_zero (hn : 0 < n) (hfit : n < 2 ^ (frac + 1)) (hk : unit ≤ k) : cut frac unit n k = 0 := by
  have hlog := (Nat.log2_lt hn.ne').mpr hfit
  have hdigits : cutDigits frac unit n k = 0 := by
    unfold cutDigits quantum
    omega
  rw [cut, hdigits, pow_zero, Nat.mod_one]

/-- A magnitude that the format has is kept (R88). -/
theorem roundMagnitude_exact (hunit : unit = -(bias : ℤ)) (hmax : maxExp = g + bias + 3) (hfrac : 0 < frac) (hn : 0 < n)
    (hfit : n < 2 ^ (frac + 1)) (hk : unit ≤ k) (hsmall : (n : ℝ) * 2 ^ k < 2 ^ (g + frac + 2) - 2 ^ g) :
    let r := roundMagnitude frac unit maxExp n k false
    r.magnitude < maxExp * 2 ^ frac ∧ (units frac r.magnitude : ℝ) = n * 2 ^ k * 2 ^ bias := by
  obtain ⟨hmag, hover, -, hinexact, -⟩ :=
    roundMagnitude_nearest hunit hmax hfrac hn (approximates_self n) (by simp) hsmall
  refine ⟨hmag, by_contra fun hne => ?_⟩
  have := hinexact.mpr hne
  rw [roundMagnitude_eq] at this hover
  simp only at hover
  simp [hover, cut_eq_zero hn hfit hk] at this

end Magnitude

/-! ### The kinds of a rounding (R90) -/

theorem kinds_overflow {r : Rounded} (ho : r.overflow = true) (hi : r.inexact = true) :
    r.kinds = kOverflow ||| kInexact := by
  simp [Rounded.kinds, ho, hi]

theorem kinds_exact {r : Rounded} (ho : r.overflow = false) (hi : ¬r.inexact = true) : r.kinds = 0 := by
  simp [Rounded.kinds, ho, Bool.eq_false_iff.mpr hi]

theorem kinds_inexact {r : Rounded} (ho : r.overflow = false) (hi : r.inexact = true) :
    r.kinds = if r.tiny then kUnderflow ||| kInexact else kInexact := by
  cases ht : r.tiny <;> simp [Rounded.kinds, ho, hi, ht]

/-! ### A rounded binary64 result -/

section Encode

variable {c : ℕ} (neg : Bool)

theorem toNat_encode64 (hc : c < 2 ^ 63) :
    (BitVec.ofNat 64 (c + neg.toNat * 2 ^ 63)).toNat = c + neg.toNat * 2 ^ 63 := by
  rw [BitVec.toNat_ofNat, Nat.mod_eq_of_lt]
  have := Bool.toNat_le neg
  omega

theorem code64_encode (hc : c < 2 ^ 63) : code64 (BitVec.ofNat 64 (c + neg.toNat * 2 ^ 63)) = c := by
  rw [code64, toNat_encode64 neg hc]
  omega

theorem f64Neg_encode (hc : c < 2 ^ 63) : f64Neg (BitVec.ofNat 64 (c + neg.toNat * 2 ^ 63)) = neg := by
  rw [f64Neg, BitVec.msb_eq_decide, toNat_encode64 neg hc]
  cases neg
  · simpa using hc
  · simp

/-- A sign and an encoding without it below that of infinity are a finite number. -/
theorem encode64_finite (hc : c < infinite64) :
    let x : F64 := BitVec.ofNat 64 (c + neg.toNat * 2 ^ 63)
    isFinite64 x ∧ x.getLsbD 63 = neg ∧ f64Key x = signed neg * c := by
  have hlt : c < 2 ^ 63 := hc.trans (by decide)
  refine ⟨?_, ?_, ?_⟩
  · rw [isFinite64_iff, code64_encode neg hlt]
    exact hc
  · rw [f64Neg_eq_getLsbD, f64Neg_encode neg hlt]
  · rw [f64Key_eq, f64Neg_encode neg hlt, code64_encode neg hlt]

theorem encode64_infinite : BitVec.ofNat 64 (infinite64 + neg.toNat * 2 ^ 63) = infinity64 neg := by
  cases neg <;> rfl

end Encode

/-- A rounding that does not overflow gives a finite number, with the sign it is given. -/
theorem round64_finite (neg : Bool) {n : ℕ} {k : ℤ} {sticky : Bool}
    (h : (roundMagnitude 52 (-1074) 2047 n k sticky).magnitude < infinite64) :
    let x := (round64 neg n k sticky).value
    isFinite64 x ∧ x.getLsbD 63 = neg
      ∧ f64Key x = signed neg * (roundMagnitude 52 (-1074) 2047 n k sticky).magnitude := encode64_finite neg h

theorem round64_kinds (neg : Bool) (n : ℕ) (k : ℤ) (sticky : Bool) :
    (round64 neg n k sticky).kinds = (roundMagnitude 52 (-1074) 2047 n k sticky).kinds := rfl

/-- The number of an encoding in the reals. -/
theorem value64_cast (x : F64) : (value64 x : ℝ) = units 52 (f64Key x) / 2 ^ 1074 := by
  rw [value64_eq_units]
  push_cast
  rfl

theorem signed_mul_lt_zero_iff {neg : Bool} {a : ℝ} (ha : 0 < a) : signed neg * a < 0 ↔ neg = true := by
  cases neg <;> simp [ha, ha.le]

theorem abs_signed_mul (neg : Bool) {a : ℝ} (ha : 0 ≤ a) : |signed neg * a| = a := by
  cases neg <;> simp [abs_of_nonneg ha]

theorem signed_mul_left_inj {neg : Bool} {a b : ℝ} : (signed neg * a : ℝ) = signed neg * b ↔ a = b := by
  cases neg <;> simp

/-- The smallest normal number, in units and as a number. -/
theorem mul_pow_lt_pow_iff {a : ℝ} (m n : ℕ) : a * 2 ^ (m + n) < 2 ^ n ↔ a < 1 / 2 ^ m := by
  have hpos : (0 : ℝ) < 2 ^ n := by positivity
  rw [lt_div_iff₀ (by positivity), pow_add, ← mul_assoc]
  constructor <;> intro <;> nlinarith

section RoundsTo

variable {neg : Bool} {m : ℝ} {kinds raised : Kinds} {x : F64}

theorem roundsTo_of_overflow (hpos : 0 < m) (hbig : 2 ^ 1024 - 2 ^ 970 ≤ m) :
    RoundsTo (signed neg * m) kinds ⟨infinity64 neg, kOverflow ||| kInexact ||| kinds⟩ := by
  rw [RoundsTo, abs_signed_mul neg hpos.le, signed_mul_lt_zero_iff hpos]
  refine ⟨fun _ => ⟨fun hp => ?_, fun hneg => by rw [hneg], rfl⟩, fun hsmall => absurd hbig hsmall.not_ge⟩
  cases neg with
  | false => rfl
  | true => exact absurd ((signed_mul_lt_zero_iff hpos).mpr rfl) hp.not_gt

theorem roundsTo_of_nearest (hpos : 0 < m) (hsmall : m < 2 ^ 1024 - 2 ^ 970) (hfin : isFinite64 x)
    (hsign : x.getLsbD 63 = neg) (hnear : Nearest 52 (signed neg * m * 2 ^ 1074) (f64Key x))
    (hexact : (units 52 (f64Key x) : ℝ) = signed neg * m * 2 ^ 1074 → raised = kinds)
    (hinexact : (units 52 (f64Key x) : ℝ) ≠ signed neg * m * 2 ^ 1074 →
      raised = (if m < 1 / 2 ^ 1022 then kUnderflow ||| kInexact else kInexact) ||| kinds) :
    RoundsTo (signed neg * m) kinds ⟨x, raised⟩ := by
  have hrounded : (value64 x : ℝ) = signed neg * m ↔ (units 52 (f64Key x) : ℝ) = signed neg * m * 2 ^ 1074 := by
    rw [value64_cast, div_eq_iff (by positivity)]
  rw [RoundsTo, abs_signed_mul neg hpos.le, signed_mul_lt_zero_iff hpos]
  refine ⟨fun hbig => absurd hbig hsmall.not_ge, fun _ => ⟨hfin, by rw [hsign], fun z _ => ?_, fun z _ htie hne => ?_,
    fun heq => hexact (hrounded.mp heq), fun hne hge => ?_, fun hne hlt => ?_⟩⟩
  · rw [value64_cast, value64_cast]
    exact (hnear.number _).1
  · rw [value64_cast, value64_cast] at htie
    refine (getLsbD_zero64 x).mpr ((hnear.number _).2 htie fun hkey => hne ?_)
    rw [value64_eq_units, value64_eq_units, hkey]
  · rw [hinexact (mt hrounded.mpr hne), if_neg hge.not_gt]
  · rw [hinexact (mt hrounded.mpr hne), if_pos hlt]

end RoundsTo

/-- R88, R90: a nonzero magnitude with its sign is rounded once, with the kinds of that rounding. -/
theorem round64_roundsTo {neg sticky : Bool} {n : ℕ} {k : ℤ} {b : ℝ} (kinds : Kinds) (hn : 0 < n)
    (h : Approximates n sticky b) (hs : sticky = true → 2 ^ 54 ≤ n) :
    RoundsTo (signed neg * (b * 2 ^ k)) kinds (withKinds kinds (round64 neg n k sticky)) := by
  have hpos : 0 < b * 2 ^ k := by
    have : (0 : ℝ) < n := by exact_mod_cast hn
    have := this.trans_le h.le
    positivity
  obtain hbig | hsmall := le_or_gt ((2 : ℝ) ^ 1024 - 2 ^ 970) (b * 2 ^ k)
  · obtain ⟨hmag, hover, hinexact⟩ := roundMagnitude_overflow (unit := -1074) (maxExp := 2047) (bias := 1074) (g := 970)
      (by norm_num) (by norm_num) (by norm_num) hn h hs hbig
    have hround : withKinds kinds (round64 neg n k sticky) = ⟨infinity64 neg, kOverflow ||| kInexact ||| kinds⟩ := by
      rw [withKinds, round64, kinds_overflow hover hinexact, hmag, ← encode64_infinite, infinite64]
    rw [hround]
    exact roundsTo_of_overflow hpos hbig
  · obtain ⟨hmag, hover, hnear, hinexact, htiny⟩ := roundMagnitude_nearest (unit := -1074) (maxExp := 2047) (bias := 1074)
      (g := 970) (by norm_num) (by norm_num) (by norm_num) hn h hs hsmall
    obtain ⟨hfin, hsign, hkey⟩ := round64_finite neg hmag
    rw [mul_pow_lt_pow_iff 1022 52] at htiny
    refine roundsTo_of_nearest hpos hsmall hfin hsign ?_ ?_ ?_
    · rw [hkey, mul_assoc]
      exact hnear.signed neg
    · intro hexact
      rw [hkey, units_signed, Int.cast_mul, mul_assoc, signed_mul_left_inj] at hexact
      rw [round64_kinds, kinds_exact hover (mt hinexact.mp (not_not.mpr hexact))]
      exact BitVec.zero_or
    · intro hne
      rw [hkey, units_signed, Int.cast_mul, mul_assoc, ne_eq, signed_mul_left_inj] at hne
      rw [round64_kinds, kinds_inexact hover (hinexact.mpr hne)]
      simp only [htiny]

/-- R88: an integer that fits a significand is encoded exactly. -/
theorem round64_exact {neg : Bool} {n : ℕ} {k : ℤ} (hn : 0 < n) (hfit : n < 2 ^ 53) (hlow : -1074 ≤ k) (hhigh : k ≤ 970) :
    let x := (round64 neg n k false).value
    isFinite64 x ∧ x.getLsbD 63 = neg ∧ (value64 x : ℝ) = signed neg * (n * 2 ^ k) := by
  have hsmall : (n : ℝ) * 2 ^ k < 2 ^ (970 + 52 + 2) - 2 ^ 970 := by
    have hn' : (n : ℝ) < 2 ^ 53 := by exact_mod_cast hfit
    have hk : (2 : ℝ) ^ k ≤ 2 ^ 970 := (zpow_le_zpow_right₀ one_le_two hhigh).trans_eq (zpow_ofNat 2 970)
    rw [pow_add, pow_add]
    generalize (2 : ℝ) ^ 970 = p at hk ⊢
    have hpos : (0 : ℝ) < 2 ^ k := by positivity
    nlinarith
  obtain ⟨hmag, hunits⟩ := roundMagnitude_exact (unit := -1074) (maxExp := 2047) (bias := 1074) (g := 970)
    (by norm_num) (by norm_num) (by norm_num) hn hfit hlow hsmall
  obtain ⟨hfin, hsign, hkey⟩ := round64_finite neg hmag
  refine ⟨hfin, hsign, ?_⟩
  rw [value64_cast, hkey, units_signed, Int.cast_mul, hunits]
  field_simp

end Sys2Proof.Machine.Arithmetic
end

section
/-! SUPPORT. The operations on binary64 values: their special cases, and what their integers stand for (R89, R90). -/
namespace Sys2Proof.Machine.Arithmetic

/-! ### The tests of the operations -/

section Tests

variable {x : F64}

theorem isNaN_of_isNaN64 (h : isNaN64 x) : f64IsNaN x = true := (f64IsNaN_iff x).mpr ((isNaN64_iff x).mp h)

theorem not_isNaN_of_not (h : ¬isNaN64 x) : f64IsNaN x = false :=
  Bool.eq_false_iff.mpr fun hn => h ((isNaN64_iff x).mpr ((f64IsNaN_iff x).mp hn))

theorem not_isNaN_of_finite (h : isFinite64 x) : f64IsNaN x = false :=
  Bool.eq_false_iff.mpr fun hn => ((f64IsNaN_iff x).mp hn).not_gt ((isFinite64_iff x).mp h)

theorem not_isInf_of_finite (h : isFinite64 x) : f64IsInf x = false :=
  Bool.eq_false_iff.mpr fun hi => ((isFinite64_iff x).mp h).ne ((f64IsInf_iff x).mp hi)

theorem isZero_of_isZero (h : isZero x) : f64IsZero x = true := (f64IsZero_iff x).mpr ((isZero_iff x).mp h)

theorem not_isZero_of_not (h : ¬isZero x) : f64IsZero x = false :=
  Bool.eq_false_iff.mpr fun hz => h ((isZero_iff x).mpr ((f64IsZero_iff x).mp hz))

end Tests

@[simp] theorem f64IsNaN_infinity64 (b : Bool) : f64IsNaN (infinity64 b) = false := by cases b <;> rfl
@[simp] theorem f64IsInf_infinity64 (b : Bool) : f64IsInf (infinity64 b) = true := by cases b <;> rfl
@[simp] theorem f64IsZero_infinity64 (b : Bool) : f64IsZero (infinity64 b) = false := by cases b <;> rfl
@[simp] theorem f64Neg_infinity64 (b : Bool) : f64Neg (infinity64 b) = b := by cases b <;> rfl

theorem denormalKinds_eq (a b : Operand) :
    denormalKinds a b = if a.denormal = true ∨ b.denormal = true then kDenormal else 0 := by
  simp [denormalKinds]

/-! ### NaN operands and infinite operands (R89, R90) -/

section Special

variable {a b : Operand} {m n : Bool}

theorem operations_nan (h : isNaN64 a.value ∨ isNaN64 b.value) :
    [fAdd a b, fSub a b, fMul a b, fDiv a b] = List.replicate 4 (invalidWith 0) := by
  have hnan : (f64IsNaN a.value || f64IsNaN b.value) = true :=
    Bool.or_eq_true_iff.mpr (h.imp isNaN_of_isNaN64 isNaN_of_isNaN64)
  simp only [fAdd, fSub, fMul, fDiv, hnan, if_true]
  rfl

theorem fAdd_infinities (hx : a.value = infinity64 m) (hy : b.value = infinity64 n) :
    fAdd a b = if m = n then ⟨infinity64 m, 0⟩ else invalidWith (denormalKinds a b) := by
  simp only [fAdd, hx, hy]
  cases m <;> cases n <;> rfl

theorem fSub_infinities (hx : a.value = infinity64 m) (hy : b.value = infinity64 n) :
    fSub a b = if m = n then invalidWith (denormalKinds a b) else ⟨infinity64 m, 0⟩ := by
  simp only [fSub, hx, hy]
  cases m <;> cases n <;> rfl

theorem fMul_infinities (hx : a.value = infinity64 m) (hy : b.value = infinity64 n) :
    fMul a b = ⟨infinity64 (m != n), 0⟩ := by
  simp only [fMul, hx, hy]
  cases m <;> cases n <;> rfl

theorem fDiv_infinities (hx : a.value = infinity64 m) (hy : b.value = infinity64 n) :
    fDiv a b = invalidWith (denormalKinds a b) := by
  simp only [fDiv, hx, hy]
  cases m <;> cases n <;> rfl

/-- An infinite operand on the left of a finite one. -/
theorem operations_infinite_left (hx : a.value = infinity64 m) (hy : isFinite64 b.value) :
    fAdd a b = ⟨infinity64 m, 0⟩ ∧ fSub a b = ⟨infinity64 m, 0⟩ ∧ fDiv a b = ⟨infinity64 (m != f64Neg b.value), 0⟩
      ∧ (isZero b.value → fMul a b = invalidWith (denormalKinds a b))
      ∧ (¬isZero b.value → fMul a b = ⟨infinity64 (m != f64Neg b.value), 0⟩) := by
  simp only [fAdd, fSub, fDiv, fMul, hx, not_isNaN_of_finite hy, not_isInf_of_finite hy, f64IsNaN_infinity64,
    f64IsInf_infinity64, f64IsZero_infinity64, f64Neg_infinity64, Bool.or_self, Bool.false_and, Bool.true_or, Bool.false_or,
    Bool.false_eq_true, if_true, if_false]
  refine ⟨trivial, trivial, rfl, fun hz => ?_, fun hz => ?_⟩
  · rw [isZero_of_isZero hz]
    rfl
  · rw [not_isZero_of_not hz]
    rfl

/-- An infinite operand on the right of a finite one. -/
theorem operations_infinite_right (hx : isFinite64 a.value) (hy : b.value = infinity64 n) :
    fAdd a b = ⟨infinity64 n, 0⟩ ∧ fSub a b = ⟨infinity64 (!n), 0⟩ ∧ fDiv a b = ⟨zero64 (f64Neg a.value != n), 0⟩
      ∧ (isZero a.value → fMul a b = invalidWith (denormalKinds a b))
      ∧ (¬isZero a.value → fMul a b = ⟨infinity64 (f64Neg a.value != n), 0⟩) := by
  simp only [fAdd, fSub, fDiv, fMul, hy, not_isNaN_of_finite hx, not_isInf_of_finite hx, f64IsNaN_infinity64,
    f64IsInf_infinity64, f64IsZero_infinity64, f64Neg_infinity64, Bool.or_self, Bool.or_true, Bool.or_false,
    Bool.false_eq_true, if_true, if_false]
  refine ⟨trivial, rfl, rfl, fun hz => ?_, fun hz => ?_⟩
  · rw [isZero_of_isZero hz]
    rfl
  · rw [not_isZero_of_not hz]
    rfl

/-! ### Finite operands -/

theorem fAdd_finite (hx : isFinite64 a.value) (hy : isFinite64 b.value) :
    fAdd a b = withKinds (denormalKinds a b) (roundSum a.value b.value false
      (zero64 (a.value == zero64 true && b.value == zero64 true))) := by
  have hzero : (f64IsZero a.value && f64IsZero b.value && f64Neg a.value && f64Neg b.value)
      = (a.value == zero64 true && b.value == zero64 true) := by
    rw [Bool.eq_iff_iff]
    simp only [Bool.and_eq_true, beq_iff_eq, eq_zero64_iff, f64IsZero_iff]
    tauto
  simp only [fAdd, not_isNaN_of_finite hx, not_isNaN_of_finite hy, not_isInf_of_finite hx, not_isInf_of_finite hy, hzero,
    Bool.or_self, Bool.false_eq_true, if_false]
  rfl

theorem fSub_finite (hx : isFinite64 a.value) (hy : isFinite64 b.value) :
    fSub a b = withKinds (denormalKinds a b) (roundSum a.value b.value true 0) := by
  simp only [fSub, not_isNaN_of_finite hx, not_isNaN_of_finite hy, not_isInf_of_finite hx, not_isInf_of_finite hy,
    Bool.or_self, Bool.false_eq_true, if_false]

theorem fMul_finite (hx : isFinite64 a.value) (hy : isFinite64 b.value) :
    let neg := f64Neg a.value != f64Neg b.value
    (isZero a.value ∨ isZero b.value → fMul a b = ⟨zero64 neg, denormalKinds a b⟩)
    ∧ (¬isZero a.value → ¬isZero b.value → fMul a b = withKinds (denormalKinds a b)
        (round64 neg (f64Mant a.value * f64Mant b.value) ((f64Scale a.value : ℤ) + f64Scale b.value - 2148) false)) := by
  simp only [fMul, not_isNaN_of_finite hx, not_isNaN_of_finite hy, not_isInf_of_finite hx, not_isInf_of_finite hy,
    Bool.or_self, Bool.false_eq_true, if_false]
  refine ⟨fun hz => ?_, fun hzx hzy => ?_⟩
  · rw [if_pos (Bool.or_eq_true_iff.mpr (hz.imp isZero_of_isZero isZero_of_isZero))]
    rfl
  · rw [not_isZero_of_not hzx, not_isZero_of_not hzy, Bool.or_self, if_neg Bool.false_ne_true]

theorem fDiv_finite (hx : isFinite64 a.value) (hy : isFinite64 b.value) :
    let neg := f64Neg a.value != f64Neg b.value
    let n := f64Mant a.value <<< 120
    let d := f64Mant b.value
    (isZero a.value → isZero b.value → fDiv a b = invalidWith (denormalKinds a b))
    ∧ (isZero a.value → ¬isZero b.value → fDiv a b = ⟨zero64 neg, denormalKinds a b⟩)
    ∧ (¬isZero a.value → ¬isZero b.value → fDiv a b = withKinds (denormalKinds a b)
        (round64 neg (n / d) ((f64Scale a.value : ℤ) - f64Scale b.value - 120) (n % d != 0))) := by
  simp only [fDiv, not_isNaN_of_finite hx, not_isNaN_of_finite hy, not_isInf_of_finite hx, not_isInf_of_finite hy,
    Bool.or_self, Bool.false_eq_true, if_false]
  refine ⟨fun hzx hzy => ?_, fun hzx hzy => ?_, fun hzx hzy => ?_⟩
  · simp only [isZero_of_isZero hzx, isZero_of_isZero hzy, if_true]
    rfl
  · simp only [isZero_of_isZero hzx, not_isZero_of_not hzy, Bool.false_eq_true, if_true, if_false]
    rfl
  · simp only [not_isZero_of_not hzx, not_isZero_of_not hzy, Bool.false_eq_true, if_false]

end Special

/-! ### The numbers of finite operands -/

theorem f64Mant_pos {x : F64} (h : ¬isZero x) : 0 < f64Mant x := by
  rw [isZero_iff] at h
  simp only [f64Mant, f64Exp_eq_code, f64Frac_eq_code]
  split <;> omega

theorem f64Mant_lt (x : F64) : f64Mant x < 2 ^ 53 := by
  simp only [f64Mant, f64Frac_eq_code]
  split <;> omega

/-- An encoding stands for its significand at its scale. -/
theorem value64_eq_mant (x : F64) :
    (value64 x : ℝ) = signed (f64Neg x) * (f64Mant x * 2 ^ ((f64Scale x : ℤ) - 1074)) := by
  rw [value64_cast, f64Key_eq, units_signed, units_natCast, magnitudeUnits_code64, zpow_sub₀ (two_ne_zero' ℝ), zpow_natCast,
    zpow_ofNat, Int.cast_mul, Int.cast_natCast, Nat.cast_mul, Nat.cast_pow, Nat.cast_ofNat, mul_div_assoc, mul_div_assoc]

/-- An encoding stands for its integer at any scale not above its own. -/
theorem value64_eq_f64Units {scale : ℕ} {x : F64} (h : scale ≤ f64Scale x) :
    (value64 x : ℝ) = f64Units scale x * 2 ^ ((scale : ℤ) - 1074) := by
  have hunits : (f64Units scale x : ℝ) = signed (f64Neg x) * (f64Mant x * 2 ^ (f64Scale x - scale)) := by
    unfold f64Units
    cases f64Neg x <;> simp [Nat.shiftLeft_eq]
  have hexp : (f64Scale x : ℤ) - 1074 = (f64Scale x - scale : ℕ) + ((scale : ℤ) - 1074) := by omega
  rw [value64_eq_mant, hunits, hexp, zpow_add₀ (two_ne_zero' ℝ), zpow_natCast]
  ring

/-- Of two finite values the sum, or the difference, is an integer at the smaller of their scales. -/
theorem exact_sum (x y : F64) (negate : Bool) :
    let scale := min (f64Scale x) (f64Scale y)
    let second := f64Units scale y
    (value64 x + signed negate * value64 y : ℝ)
      = (f64Units scale x + (if negate then -second else second) : ℤ) * 2 ^ ((scale : ℤ) - 1074) := by
  intro scale second
  rw [value64_eq_f64Units (min_le_left (f64Scale x) (f64Scale y)),
    value64_eq_f64Units (min_le_right (f64Scale x) (f64Scale y))]
  cases negate <;> simp [second, scale] <;> ring

theorem signed_mul_natAbs (i : ℤ) : (signed (decide (i < 0)) * i.natAbs : ℝ) = i := by
  by_cases h : i < 0
  · simp [h, Nat.cast_natAbs, abs_of_neg h]
  · simp [h, Nat.cast_natAbs, abs_of_nonneg (not_lt.mp h)]

/-- R88, R89: a sum or difference is rounded once, and an exact zero is the zero it is given. -/
theorem roundSum_spec (x y : F64) (negate : Bool) (zero : F64) (kinds : Kinds) :
    let exact : ℝ := value64 x + signed negate * value64 y
    (exact ≠ 0 → RoundsTo exact kinds (withKinds kinds (roundSum x y negate zero)))
    ∧ (exact = 0 → withKinds kinds (roundSum x y negate zero) = ⟨zero, kinds⟩) := by
  intro exact
  have hexact : exact = _ := exact_sum x y negate
  unfold roundSum
  dsimp only at hexact ⊢
  generalize f64Units _ x + (if negate then _ else _ : ℤ) = i at hexact ⊢
  have hpow : (2 : ℝ) ^ (((min (f64Scale x) (f64Scale y) : ℕ) : ℤ) - 1074) ≠ 0 := by positivity
  refine ⟨fun hne => ?_, fun hzero => ?_⟩
  · have hi : i ≠ 0 := by
      rintro rfl
      exact hne (by simp [hexact])
    rw [if_neg hi, hexact, ← signed_mul_natAbs i, mul_assoc]
    exact round64_roundsTo kinds (Int.natAbs_pos.mpr hi) (approximates_self _) (by simp)
  · have hi : i = 0 := by
      rw [hexact, mul_eq_zero, or_iff_left hpow] at hzero
      exact_mod_cast hzero
    rw [if_pos hi, withKinds]
    exact congrArg _ BitVec.zero_or

theorem signed_bne (m n : Bool) : (signed (m != n) : ℝ) = signed m * signed n := by
  cases m <;> cases n <;> norm_num [signed]

theorem signed_inv (n : Bool) : (signed n : ℝ)⁻¹ = signed n := by cases n <;> norm_num [signed]

/-- R88: the product of two nonzero finite values is rounded once. -/
theorem product_roundsTo {x y : F64} (hx : ¬isZero x) (hy : ¬isZero y) (kinds : Kinds) :
    RoundsTo (value64 x * value64 y) kinds (withKinds kinds (round64 (f64Neg x != f64Neg y) (f64Mant x * f64Mant y)
      ((f64Scale x : ℤ) + f64Scale y - 2148) false)) := by
  have hexp : (f64Scale x : ℤ) + f64Scale y - 2148 = ((f64Scale x : ℤ) - 1074) + ((f64Scale y : ℤ) - 1074) := by ring
  have hproduct : (value64 x * value64 y : ℝ) = signed (f64Neg x != f64Neg y)
      * ((f64Mant x * f64Mant y : ℕ) * 2 ^ ((f64Scale x : ℤ) + f64Scale y - 2148)) := by
    rw [value64_eq_mant, value64_eq_mant, signed_bne, hexp, zpow_add₀ (two_ne_zero' ℝ)]
    push_cast
    ring
  rw [hproduct]
  exact round64_roundsTo kinds (Nat.mul_pos (f64Mant_pos hx) (f64Mant_pos hy)) (approximates_self _) (by simp)

/-- A quotient of integers and whether it leaves a remainder. -/
theorem approximates_div {n d : ℕ} (hd : 0 < d) : Approximates (n / d) (n % d != 0) (n / d : ℝ) := by
  have hpos : (0 : ℝ) < d := by exact_mod_cast hd
  have hsplit : (n : ℝ) / d = (n / d : ℕ) + (n % d : ℕ) / d := by
    rw [div_eq_iff hpos.ne', add_mul, div_mul_cancel₀ _ hpos.ne']
    exact_mod_cast (Nat.div_add_mod' n d).symm
  have hrest : ((n % d : ℕ) : ℝ) < d := by exact_mod_cast Nat.mod_lt n hd
  rw [hsplit]
  refine ⟨le_add_of_nonneg_right (by positivity), add_lt_add_right ((div_lt_one hpos).mpr hrest) _, ?_⟩
  simp [hpos.ne']

/-- R88: the quotient of two nonzero finite values is rounded once. -/
theorem quotient_roundsTo {x y : F64} (hx : ¬isZero x) (hy : ¬isZero y) (kinds : Kinds) :
    let n := f64Mant x <<< 120
    let d := f64Mant y
    RoundsTo (value64 x / value64 y) kinds (withKinds kinds (round64 (f64Neg x != f64Neg y) (n / d)
      ((f64Scale x : ℤ) - f64Scale y - 120) (n % d != 0))) := by
  intro n d
  have hd : 0 < d := f64Mant_pos hy
  have hn : n = f64Mant x * 2 ^ 120 := Nat.shiftLeft_eq _ _
  have hlarge : 2 ^ 54 ≤ n / d := by
    rw [Nat.le_div_iff_mul_le hd, hn]
    calc 2 ^ 54 * d ≤ 2 ^ 54 * 2 ^ 53 := Nat.mul_le_mul_left _ (f64Mant_lt y).le
      _ ≤ 1 * 2 ^ 120 := by norm_num
      _ ≤ f64Mant x * 2 ^ 120 := Nat.mul_le_mul_right _ (f64Mant_pos hx)
  have hpow : (2 : ℝ) ^ ((f64Scale x : ℤ) - f64Scale y - 120) =
      2 ^ ((f64Scale x : ℤ) - 1074) / 2 ^ ((f64Scale y : ℤ) - 1074) / 2 ^ 120 := by
    rw [← zpow_sub₀ (two_ne_zero' ℝ), sub_sub_sub_cancel_right, ← zpow_natCast, ← zpow_sub₀ (two_ne_zero' ℝ)]
    rfl
  have hquotient : (value64 x / value64 y : ℝ) = signed (f64Neg x != f64Neg y)
      * ((n / d : ℝ) * 2 ^ ((f64Scale x : ℤ) - f64Scale y - 120)) := by
    rw [value64_eq_mant, value64_eq_mant, signed_bne, hpow, hn, div_eq_mul_inv, mul_inv, signed_inv, Nat.cast_mul,
      Nat.cast_pow, Nat.cast_ofNat]
    have hp : (2 : ℝ) ^ ((f64Scale y : ℤ) - 1074) ≠ 0 := by positivity
    generalize (2 : ℝ) ^ ((f64Scale y : ℤ) - 1074) = p at hp ⊢
    have hm : (f64Mant y : ℝ) ≠ 0 := by exact_mod_cast hd.ne'
    generalize (2 : ℝ) ^ ((f64Scale x : ℤ) - 1074) = q
    simp only [d]
    field_simp
  rw [hquotient]
  exact round64_roundsTo kinds (by omega) (approximates_div hd) fun _ => hlarge

/-! ### The square root -/

/-- Digit by digit: what is found so far stays below the root, and is at most the last digit's step below it. -/
theorem isqrtFrom_eq_sqrt (bits n r : ℕ) (hlow : r * r ≤ n) (hhigh : n < (r + 2 ^ bits) * (r + 2 ^ bits)) :
    isqrtFrom bits n r = Nat.sqrt n := by
  induction bits generalizing r with
  | zero => exact Nat.eq_sqrt.mpr ⟨hlow, hhigh⟩
  | succ bits ih =>
    have hpow : r + 2 ^ (bits + 1) = r + 2 ^ bits + 2 ^ bits := by ring
    rw [hpow] at hhigh
    rw [isqrtFrom]
    split
    case isTrue h => exact ih _ h hhigh
    case isFalse h => exact ih _ hlow (not_le.mp h)

theorem approximates_sqrt (n : ℕ) : Approximates (Nat.sqrt n) (Nat.sqrt n * Nat.sqrt n != n) (Real.sqrt n) := by
  refine ⟨Real.nat_sqrt_le_real_sqrt, Real.real_sqrt_lt_nat_sqrt_succ, ?_⟩
  rw [bne_iff_ne, ne_eq, not_iff_not, Real.sqrt_eq_iff_mul_self_eq (by positivity) (by positivity), eq_comm]
  norm_cast

/-- R88: the root of a number is that of an integer of twice as many digits as are kept, at half an even exponent. -/
theorem root_roundsTo {mant : ℕ} (scale : ℕ) (kinds : Kinds) (hpos : 0 < mant) (hlt : mant < 2 ^ 53) :
    let shift := 116 + scale % 2
    let n := mant <<< shift
    let r := isqrtFrom 86 n 0
    RoundsTo (Real.sqrt (mant * 2 ^ ((scale : ℤ) - 1074))) kinds
      (withKinds kinds (round64 false r (((scale : ℤ) - 1074 - shift) / 2) (r * r != n))) := by
  intro shift n r
  have hn : n = mant * 2 ^ shift := Nat.shiftLeft_eq _ _
  have hlow : 2 ^ 116 ≤ n := by
    rw [hn]
    exact (Nat.pow_le_pow_right (by norm_num) (Nat.le_add_right 116 _)).trans (Nat.le_mul_of_pos_left _ hpos)
  have hhigh : n < 2 ^ 53 * 2 ^ 117 := by
    rw [hn]
    exact Nat.mul_lt_mul_of_lt_of_le hlt (Nat.pow_le_pow_right (by norm_num) (by omega)) (by positivity)
  have hr : r = Nat.sqrt n := isqrtFrom_eq_sqrt 86 n 0 (Nat.zero_le _) (by omega)
  have hroot : 2 ^ 54 ≤ Nat.sqrt n := Nat.le_sqrt.mpr (by omega)
  have hexp : (scale : ℤ) - 1074 = ((scale : ℤ) - 1074 - shift) / 2 + ((scale : ℤ) - 1074 - shift) / 2 + shift := by
    omega
  rw [hr]
  generalize ((scale : ℤ) - 1074 - shift) / 2 = half at hexp ⊢
  have hsplit : Real.sqrt (mant * 2 ^ ((scale : ℤ) - 1074)) = signed false * (Real.sqrt n * 2 ^ half) := by
    have hsquare : (mant * 2 ^ ((scale : ℤ) - 1074) : ℝ) = n * (2 ^ half * 2 ^ half) := by
      rw [hexp, zpow_add₀ (two_ne_zero' ℝ), zpow_add₀ (two_ne_zero' ℝ), zpow_natCast, hn]
      push_cast
      ring
    rw [hsquare, Real.sqrt_mul (Nat.cast_nonneg n), Real.sqrt_mul_self (by positivity), signed_false, Int.cast_one, one_mul]
  rw [hsplit]
  exact round64_roundsTo kinds (by omega) (approximates_sqrt n) fun _ => hroot

section Root

variable {a : Operand}

theorem fSqrt_nan (h : isNaN64 a.value) : fSqrt a = invalidWith 0 := by
  simp only [fSqrt, isNaN_of_isNaN64 h, if_true]
  rfl

theorem fSqrt_zero (h : isZero a.value) : fSqrt a = ⟨a.value, if a.denormal = true then kDenormal else 0⟩ := by
  obtain ⟨b, hb⟩ := h
  simp only [fSqrt, hb]
  cases b <;> rfl

theorem fSqrt_negative (hneg : a.value.getLsbD 63 = true) (hzero : ¬isZero a.value) (hnan : ¬isNaN64 a.value) :
    fSqrt a = invalidWith (if a.denormal = true then kDenormal else 0) := by
  rw [f64Neg_eq_getLsbD] at hneg
  simp only [fSqrt, not_isNaN_of_not hnan, not_isZero_of_not hzero, hneg, Bool.false_eq_true, if_true, if_false]
  rfl

theorem fSqrt_infinite (h : a.value = infinity64 false) : fSqrt a = ⟨infinity64 false, 0⟩ := by
  simp only [fSqrt, h]
  rfl

/-- R88: the root of a positive finite value is rounded once. -/
theorem fSqrt_roundsTo (hfin : isFinite64 a.value) (hpos : 0 < value64 a.value) :
    RoundsTo (Real.sqrt (value64 a.value)) (if a.denormal = true then kDenormal else 0) (fSqrt a) := by
  have hvalue := value64_eq_mant a.value
  have hneg : f64Neg a.value = false := by
    refine Bool.eq_false_iff.mpr fun hneg => ?_
    have hcast : (0 : ℝ) < value64 a.value := by exact_mod_cast hpos
    rw [hvalue, hneg, signed_true] at hcast
    have : (0 : ℝ) ≤ f64Mant a.value * 2 ^ ((f64Scale a.value : ℤ) - 1074) := by positivity
    push_cast at hcast
    linarith
  have hzero : ¬isZero a.value := by
    rw [isZero_iff]
    intro hcode
    rw [value64_eq_units, f64Key_eq, hcode] at hpos
    simp at hpos
  rw [hvalue, hneg, signed_false, Int.cast_one, one_mul]
  simp only [fSqrt, not_isNaN_of_finite hfin, not_isZero_of_not hzero, hneg, not_isInf_of_finite hfin, Bool.false_eq_true,
    if_false]
  exact root_roundsTo _ _ (f64Mant_pos hzero) (f64Mant_lt _)

end Root

end Sys2Proof.Machine.Arithmetic
end

section
/-! SUPPORT. The binary32 format and its conversions: widening, integers and narrowing (R88, R99), and the order of the
binary64 values (R70, R72). -/
namespace Sys2Proof.Machine.Arithmetic

/-! ### The fields of a binary32 encoding -/

/-- The encoding without its sign. -/
def code32 (x : F32) : ℕ := x.toNat % 2 ^ 31

/-- An integer that orders the values that are not NaN, as `f64Key` does those of binary64. -/
def f32Key (x : F32) : ℤ := signed (f32Neg x) * code32 x

/-- The encoding of an infinity without its sign. -/
def infinite32 : ℕ := 255 * 2 ^ 23

theorem f32Neg_eq_getLsbD (x : F32) : x.getLsbD 31 = f32Neg x := by
  rw [f32Neg, BitVec.msb_eq_getLsbD_last]

theorem f32Exp_eq_code (x : F32) : f32Exp x = code32 x / 2 ^ 23 := by
  unfold f32Exp code32
  omega

theorem f32Frac_eq_code (x : F32) : f32Frac x = code32 x % 2 ^ 23 := by
  unfold f32Frac code32
  omega

theorem code32_lt (x : F32) : code32 x < 2 ^ 31 := Nat.mod_lt _ (by positivity)

theorem extract_exponent32 (x : F32) : (x.extractLsb' 23 8).toNat = f32Exp x := by
  simp [f32Exp, BitVec.extractLsb'_toNat, Nat.shiftRight_eq_div_pow]

theorem extract_fraction32 (x : F32) : (x.extractLsb' 0 23).toNat = f32Frac x := by
  simp [f32Frac, BitVec.extractLsb'_toNat]

theorem extract_fraction32_ne_zero (x : F32) : x.extractLsb' 0 23 ≠ 0 ↔ f32Frac x ≠ 0 := by
  rw [← extract_fraction32, ne_eq, ← BitVec.toNat_inj]
  rfl

theorem extract_subnormal32 (x : F32) :
    decide ((x.extractLsb' 23 8).toNat = 0 ∧ x.extractLsb' 0 23 ≠ 0) = f32IsSubnormal x := by
  rw [Bool.eq_iff_iff, decide_eq_true_eq, extract_exponent32, extract_fraction32_ne_zero]
  simp [f32IsSubnormal]

theorem getLsbD_zero32 (x : F32) : x.getLsbD 0 = false ↔ f32Key x % 2 = 0 := by
  have hbit : x.getLsbD 0 = decide (code32 x % 2 = 1) := by
    simp only [BitVec.getLsbD, Nat.testBit_zero, code32]
    congr 1
    simp only [eq_iff_iff]
    omega
  rw [hbit, f32Key, decide_eq_false_iff_not]
  cases f32Neg x
  · rw [signed_false]
    omega
  · rw [signed_true]
    omega

theorem isFinite32_iff (x : F32) : isFinite32 x ↔ code32 x < infinite32 := by
  have := code32_lt x
  rw [isFinite32, extract_exponent32, f32Exp_eq_code, infinite32]
  omega

theorem f32IsNaN_of_isNaN32 {x : F32} (h : isNaN32 x) : f32IsNaN x = true := by
  rw [isNaN32, extract_exponent32, extract_fraction32_ne_zero] at h
  simp [f32IsNaN, h]

theorem f32_tests_of_finite {x : F32} (h : isFinite32 x) : f32IsNaN x = false ∧ f32IsInf x = false := by
  rw [isFinite32, extract_exponent32] at h
  simp [f32IsNaN, f32IsInf, h]

theorem f32IsZero_iff (x : F32) : f32IsZero x = true ↔ code32 x = 0 := by
  simp only [f32IsZero, f32Exp_eq_code, f32Frac_eq_code, Bool.and_eq_true, beq_iff_eq]
  omega

theorem magnitudeUnits_code32 (x : F32) : magnitudeUnits 23 (code32 x) = f32Mant x * 2 ^ f32Scale x := by
  simp only [magnitudeUnits, f32Mant, f32Scale, f32Exp_eq_code, f32Frac_eq_code]
  split <;> simp_all

/-- An encoding stands for as many smallest units as its key tells (section 1.6). -/
theorem value32_eq_units (x : F32) : value32 x = units 23 (f32Key x) / 2 ^ 149 := by
  have hmant : (f32Frac x + if f32Exp x = 0 then 0 else 2 ^ 23) = f32Mant x := by
    unfold f32Mant
    split <;> rfl
  rw [value32, f32Neg_eq_getLsbD, f32Key, units_signed, units_natCast, magnitudeUnits_code32]
  simp only [extract_exponent32, extract_fraction32, hmant]
  cases f32Neg x <;> simp [f32Scale, neg_div]

theorem value32_cast (x : F32) : (value32 x : ℝ) = units 23 (f32Key x) / 2 ^ 149 := by
  rw [value32_eq_units]
  push_cast
  rfl

theorem value32_eq_mant (x : F32) :
    (value32 x : ℝ) = signed (f32Neg x) * (f32Mant x * 2 ^ ((f32Scale x : ℤ) - 149)) := by
  rw [value32_cast, f32Key, units_signed, units_natCast, magnitudeUnits_code32, zpow_sub₀ (two_ne_zero' ℝ), zpow_natCast,
    zpow_ofNat, Int.cast_mul, Int.cast_natCast, Nat.cast_mul, Nat.cast_pow, Nat.cast_ofNat, mul_div_assoc, mul_div_assoc]

/-! ### Widening (R88) -/

theorem widen_nan {x : F32} (h : isNaN32 x) : widen x = f64NaN := by rw [widen, if_pos (f32IsNaN_of_isNaN32 h)]

theorem zero64_number (neg : Bool) :
    isFinite64 (zero64 neg) ∧ value64 (zero64 neg) = 0 ∧ (zero64 neg).getLsbD 63 = neg := by
  obtain ⟨hcode, hneg⟩ := (eq_zero64_iff (zero64 neg) neg).mp rfl
  refine ⟨?_, ?_, ?_⟩
  · rw [isFinite64_iff, hcode]
    decide
  · rw [value64_eq_units, f64Key_eq, hcode]
    simp
  · rw [f64Neg_eq_getLsbD, hneg]

/-- A finite binary32 value is widened to the same number, and keeps its sign. -/
theorem widen_finite {x : F32} (h : isFinite32 x) :
    isFinite64 (widen x) ∧ value64 (widen x) = value32 x ∧ (widen x).getLsbD 63 = x.getLsbD 31 := by
  obtain ⟨hnan, hinf⟩ := f32_tests_of_finite h
  rw [f32Neg_eq_getLsbD, widen, if_neg (Bool.eq_false_iff.mp hnan), if_neg (Bool.eq_false_iff.mp hinf)]
  by_cases hz : f32IsZero x = true
  · have hvalue : value32 x = 0 := by
      rw [value32_eq_units, f32Key, (f32IsZero_iff x).mp hz]
      simp
    rw [if_pos hz, hvalue]
    exact zero64_number (f32Neg x)
  · have hcode : code32 x ≠ 0 := fun hc => hz ((f32IsZero_iff x).mpr hc)
    have hlt := code32_lt x
    have hmant : 0 < f32Mant x ∧ f32Mant x < 2 ^ 53 ∧ f32Scale x ≤ 254 := by
      simp only [f32Mant, f32Scale, f32Exp_eq_code, f32Frac_eq_code]
      split <;> omega
    obtain ⟨hpos, hfit, hscale⟩ := hmant
    obtain ⟨hfin, hsign, hvalue⟩ :=
      round64_exact (neg := f32Neg x) (k := (f32Scale x : ℤ) - 149) hpos hfit (by omega) (by omega)
    rw [if_neg hz]
    refine ⟨hfin, ?_, hsign⟩
    rw [← value32_eq_mant] at hvalue
    exact_mod_cast hvalue

/-! ### Integers (R88) -/

/-- An integer that a word holds, signed or unsigned, is a number of the format. -/
theorem f64OfInt_number {i : ℤ} (hlow : -2 ^ 31 ≤ i) (hhigh : i < 2 ^ 32) :
    isFinite64 (f64OfInt i) ∧ value64 (f64OfInt i) = i ∧ ((f64OfInt i).getLsbD 63 = true ↔ i < 0) := by
  unfold f64OfInt
  by_cases hi : i = 0
  · obtain ⟨hfin, hvalue, hsign⟩ := zero64_number false
    subst hi
    exact ⟨hfin, hvalue.trans Int.cast_zero.symm, by decide⟩
  · obtain ⟨hfin, hsign, hvalue⟩ :=
      round64_exact (neg := decide (i < 0)) (k := 0) (Int.natAbs_pos.mpr hi) (by omega) (by omega) (by omega)
    rw [if_neg hi]
    refine ⟨hfin, ?_, by rw [hsign, decide_eq_true_eq]⟩
    rw [zpow_zero, mul_one, signed_mul_natAbs] at hvalue
    exact_mod_cast hvalue

/-! ### Narrowing (R99) -/

section Narrow

variable {x : F64}

theorem narrow_nan (h : isNaN64 x) : narrow x = f32NaN := by rw [narrow, if_pos (isNaN_of_isNaN64 h)]

/-- The rounded magnitude of a nonzero finite value. -/
def narrowed (x : F64) : ℕ := (roundMagnitude 23 (-149) 255 (f64Mant x) ((f64Scale x : ℤ) - 1074) false).magnitude

theorem narrow_finite (hfin : isFinite64 x) (hzero : ¬isZero x) :
    narrow x = BitVec.ofNat 32 ((f64Neg x).toNat * 2 ^ 31 + narrowed x) := by
  simp only [narrow, not_isNaN_of_finite hfin, not_isInf_of_finite hfin, not_isZero_of_not hzero, Bool.false_eq_true,
    if_false]
  rfl

theorem encode32_finite {c : ℕ} (neg : Bool) (hc : c < infinite32) :
    let y : F32 := BitVec.ofNat 32 (neg.toNat * 2 ^ 31 + c)
    isFinite32 y ∧ y.getLsbD 31 = neg ∧ f32Key y = signed neg * c := by
  have hlt : c < 2 ^ 31 := hc.trans (by decide)
  have htoNat : (BitVec.ofNat 32 (neg.toNat * 2 ^ 31 + c)).toNat = neg.toNat * 2 ^ 31 + c := by
    rw [BitVec.toNat_ofNat, Nat.mod_eq_of_lt]
    have := Bool.toNat_le neg
    omega
  have hcode : code32 (BitVec.ofNat 32 (neg.toNat * 2 ^ 31 + c)) = c := by
    rw [code32, htoNat]
    omega
  have hneg : f32Neg (BitVec.ofNat 32 (neg.toNat * 2 ^ 31 + c)) = neg := by
    rw [f32Neg, BitVec.msb_eq_decide, htoNat]
    cases neg
    · simpa using hlt
    · simp
  refine ⟨?_, ?_, ?_⟩
  · rw [isFinite32_iff, hcode]
    exact hc
  · rw [f32Neg_eq_getLsbD, hneg]
  · rw [f32Key, hneg, hcode]

theorem abs_value64 (x : F64) : |(value64 x : ℝ)| = f64Mant x * 2 ^ ((f64Scale x : ℤ) - 1074) := by
  rw [value64_eq_mant, abs_signed_mul _ (by positivity)]

/-- Beyond the largest finite binary32 number by half a unit or more, the infinity of the same sign. -/
theorem narrow_overflow (hfin : isFinite64 x) (hbig : 2 ^ 128 - 2 ^ 103 ≤ |value64 x|) :
    narrow x = if x.getLsbD 63 then 0xFF800000 else 0x7F800000 := by
  have hbig' : (2 : ℝ) ^ (103 + 23 + 2) - 2 ^ 103 ≤ f64Mant x * 2 ^ ((f64Scale x : ℤ) - 1074) := by
    rw [← abs_value64]
    exact_mod_cast hbig
  have hzero : ¬isZero x := by
    rw [isZero_iff]
    intro hcode
    rw [value64_eq_units, f64Key_eq, hcode] at hbig
    norm_num at hbig
  obtain ⟨hmag, -, -⟩ := roundMagnitude_overflow (unit := -149) (maxExp := 255) (bias := 149) (g := 103)
    (by norm_num) (by norm_num) (by norm_num) (f64Mant_pos hzero) (approximates_self _) (by simp) hbig'
  rw [narrow_finite hfin hzero, narrowed, hmag, f64Neg_eq_getLsbD]
  cases f64Neg x <;> rfl

/-- Below that, the nearest binary32 number, of the same sign. -/
theorem narrow_nearest (hfin : isFinite64 x) (hzero : ¬isZero x) (hsmall : |value64 x| < 2 ^ 128 - 2 ^ 103) :
    isFinite32 (narrow x) ∧ (narrow x).getLsbD 31 = x.getLsbD 63
      ∧ Nearest 23 (value64 x * 2 ^ 149) (f32Key (narrow x)) := by
  have hsmall' : f64Mant x * 2 ^ ((f64Scale x : ℤ) - 1074) < (2 : ℝ) ^ (103 + 23 + 2) - 2 ^ 103 := by
    rw [← abs_value64]
    exact_mod_cast hsmall
  obtain ⟨hmag, -, hnear, -, -⟩ := roundMagnitude_nearest (unit := -149) (maxExp := 255) (bias := 149) (g := 103)
    (by norm_num) (by norm_num) (by norm_num) (f64Mant_pos hzero) (approximates_self _) (by simp) hsmall'
  obtain ⟨hfin32, hsign, hkey⟩ := encode32_finite (f64Neg x) hmag
  rw [narrow_finite hfin hzero, f64Neg_eq_getLsbD]
  refine ⟨hfin32, hsign, ?_⟩
  rw [narrowed, hkey, value64_eq_mant, mul_assoc]
  exact hnear.signed (f64Neg x)

end Narrow

/-! ### Comparisons (R70, R72) -/

theorem value64_infinity64 (neg : Bool) : value64 (infinity64 neg) = signed neg * 2 ^ 1024 := by
  obtain ⟨hcode, hneg⟩ := (eq_infinity64_iff (infinity64 neg) neg).mp rfl
  have hinfinite : infinite64 = 0 + (2046 + 1) * 2 ^ 52 := rfl
  have hpow : (2 ^ 52 * 2 ^ 2046 : ℚ) = 2 ^ 1024 * 2 ^ 1074 := by rw [← pow_add, ← pow_add]
  rw [value64_eq_units, f64Key_eq, hcode, hneg, units_signed, units_natCast, hinfinite,
    magnitudeUnits_normal 2046 (by norm_num), zero_add, div_eq_iff (by positivity), mul_assoc,
    ← hpow, Int.cast_mul, Int.cast_natCast, Nat.cast_mul, Nat.cast_pow, Nat.cast_pow, Nat.cast_ofNat]

theorem value64_le_iff (x y : F64) : value64 x ≤ value64 y ↔ f64Key x ≤ f64Key y := by
  rw [value64_eq_units, value64_eq_units, div_le_div_iff_of_pos_right (by positivity), Int.cast_le,
    (units_strictMono 52).le_iff_le]

theorem value64_lt_iff (x y : F64) : value64 x < value64 y ↔ f64Key x < f64Key y := by
  rw [← not_le, ← not_le, value64_le_iff]

theorem comparisons_nan {x y : F64} (h : isNaN64 x ∨ isNaN64 y) : fLe x y = false ∧ fLt x y = false := by
  obtain h | h := h <;> simp [fLe, fLt, isNaN_of_isNaN64 h]

theorem fLe_iff {x y : F64} (hx : ¬isNaN64 x) (hy : ¬isNaN64 y) : fLe x y = true ↔ value64 x ≤ value64 y := by
  simp [fLe, not_isNaN_of_not hx, not_isNaN_of_not hy, value64_le_iff]

theorem fLt_iff {x y : F64} (hx : ¬isNaN64 x) (hy : ¬isNaN64 y) : fLt x y = true ↔ value64 x < value64 y := by
  simp [fLt, not_isNaN_of_not hx, not_isNaN_of_not hy, value64_lt_iff]

end Sys2Proof.Machine.Arithmetic
end

section
/-! The statements about the arithmetic. -/
namespace Sys2Proof.Machine.Arithmetic

/-- Settles O47: each operation by its special cases, and otherwise by the integers that it rounds. -/
theorem operationsRounded : Obligations.OperationsRounded := by
  refine ⟨?binary, ?root, fun x => ?held64, fun x => ?held32⟩
  case binary =>
    intro a b x y denormal differ
    have hden : denormalKinds a b = denormal := denormalKinds_eq a b
    have hdiffer : differ = (f64Neg x != f64Neg y) := by simp only [differ, f64Neg_eq_getLsbD]
    refine ⟨operations_nan, ?finite, ?infinities, ?left, ?right⟩
    case finite =>
      intro hx hy sum difference
      obtain ⟨hsum, hsumZero⟩ := roundSum_spec x y false (zero64 (x == zero64 true && y == zero64 true)) denormal
      obtain ⟨hdifference, hdifferenceZero⟩ := roundSum_spec x y true 0 denormal
      obtain ⟨hdivZeros, hdivZero, hdiv⟩ := fDiv_finite hx hy
      obtain ⟨hmulZero, hmul⟩ := fMul_finite hx hy
      rw [signed_false, Int.cast_one, one_mul] at hsum hsumZero
      rw [signed_true, Int.cast_neg, Int.cast_one, neg_one_mul, ← sub_eq_add_neg] at hdifference hdifferenceZero
      rw [fAdd_finite hx hy, fSub_finite hx hy, hden]
      rw [hden] at hmulZero hmul hdivZeros hdivZero hdiv
      rw [← hdiffer] at hmulZero hdivZero
      refine ⟨hsum, hsumZero, hdifference, hdifferenceZero, fun hzx hzy => ⟨?_, ?_⟩, hmulZero, hdivZero, hdivZeros⟩
      · rw [hmul hzx hzy]
        exact product_roundsTo hzx hzy denormal
      · rw [hdiv hzx hzy]
        exact quotient_roundsTo hzx hzy denormal
    case infinities =>
      intro m n hx hy
      have hneg : differ = (m != n) := by rw [hdiffer, hx, hy, f64Neg_infinity64, f64Neg_infinity64]
      rw [fAdd_infinities hx hy, fSub_infinities hx hy, fMul_infinities hx hy, fDiv_infinities hx hy, hden, hneg, hx]
      exact ⟨fun h => ⟨if_pos h, if_pos h⟩, fun h => ⟨if_neg h, if_neg h⟩, rfl, rfl⟩
    case left =>
      rintro ⟨m, hx⟩ hy
      obtain ⟨hadd, hsub, hdiv, hmulZero, hmul⟩ := operations_infinite_left hx hy
      have hneg : differ = (m != f64Neg y) := by rw [hdiffer, hx, f64Neg_infinity64]
      rw [← hden, hneg, hx]
      exact ⟨hadd, hsub, hdiv, hmulZero, hmul⟩
    case right =>
      intro n hx hy
      obtain ⟨hadd, hsub, hdiv, hmulZero, hmul⟩ := operations_infinite_right hx hy
      have hneg : differ = (f64Neg x != n) := by rw [hdiffer, hy, f64Neg_infinity64]
      rw [← hden, hneg, hy]
      exact ⟨hadd, hsub, hdiv, hmulZero, hmul⟩
  case root =>
    intro a x denormal
    exact ⟨fSqrt_nan, fSqrt_roundsTo, fSqrt_zero, fSqrt_negative, fun h => h ▸ fSqrt_infinite h⟩
  case held64 =>
    rw [extract_subnormal64]
    rfl
  case held32 =>
    rw [extract_subnormal32]
    rfl

/-- Settles O48: widening and integers by the exact rounding, narrowing by the nearest number, the comparisons by the order
of the keys. -/
theorem formatsConvertedAndCompared : Obligations.FormatsConvertedAndCompared := by
  refine ⟨fun x => ⟨widen_finite, ⟨rfl, rfl⟩, widen_nan⟩, fun i hlow hhigh => ?integers, fun x => ?narrow, fun x y => ?order⟩
  case integers =>
    obtain ⟨hfin, hvalue, hsign⟩ := f64OfInt_number hlow hhigh
    exact ⟨hfin, hvalue, hsign, rfl⟩
  case narrow =>
    intro y v
    refine ⟨narrow_nan, ?_, ?_, ?_, ?_, narrow_overflow, fun hfin hzero hsmall => ?_⟩
    iterate 4
      · intro h
        simp only [y, h]
        rfl
    obtain ⟨hfin32, hsign, hnear⟩ := narrow_nearest hfin hzero hsmall
    refine ⟨hfin32, hsign, fun z _ => ?_, fun z _ htie hne => ?_⟩
    · have := (hnear.number (f32Key z)).1
      rw [← value32_cast, ← value32_cast] at this
      exact_mod_cast this
    · have := (hnear.number (f32Key z)).2
      rw [← value32_cast, ← value32_cast] at this
      refine (getLsbD_zero32 y).mpr (this (by exact_mod_cast htie) fun hkey => hne ?_)
      rw [value32_eq_units, value32_eq_units, hkey]
  case order =>
    intro place
    have hplace (z : F64) : place z = value64 z := by
      simp only [place]
      split
      case isTrue h => rw [h, value64_infinity64, signed_false, Int.cast_one, one_mul]
      case isFalse =>
        split
        case isTrue h => rw [h, value64_infinity64, signed_true, Int.cast_neg, Int.cast_one, neg_one_mul]
        case isFalse => rfl
    rw [hplace, hplace]
    exact ⟨comparisons_nan, fun hx hy => ⟨fLe_iff hx hy, fLt_iff hx hy⟩⟩

/-- Settles O49: the model's step is that one product. -/
theorem flowStep : Obligations.FlowStep := fun _ _ => rfl

end Sys2Proof.Machine.Arithmetic
end

section
/-! SUPPORT. What a step can do to the work queue, to the counts of frames and to the place promised to a command write (R58,
R108 to R111, R130, R131, R181, R182): a few moves, which every step is made of. -/
namespace Sys2Proof.Machine.MeasurementPoints
open Sys2Proof.Machine.SampleFrames Sys2Proof.Machine.Classification

/-- What the bound of the work queue and the law of frame counts speak of; `held` says that a command write holds a granted
place. -/
structure Counts where
  closed : Word
  checkFailed : Word
  overrun : Word
  processed : Word
  dropped : Word
  queue : List WorkItem
  held : Bool

def counts (s : State) : Counts :=
  ⟨s.asm.closed, s.asm.checkFailed, s.asm.overrun, s.engine.processed, s.engine.droppedByReset, s.engine.workQueue,
    commandWriteHeld s⟩

/-- The moves that a step makes. -/
inductive Move : Counts → Counts → Prop
  /-- The write of the command in hand ends, or none holds a place. -/
  | released (c : Counts) : Move c { c with held := false }
  /-- A command write is granted a place (R181). -/
  | granted (c : Counts) (room : c.queue.length < 15) : Move c { c with held := true }
  /-- A frame closes with a bad check word (R57). -/
  | failed (c : Counts) : Move c { c with closed := c.closed + 1, checkFailed := c.checkFailed + 1 }
  /-- A frame closes and finds no place (R109). -/
  | overran (c : Counts) : Move c { c with closed := c.closed + 1, overrun := c.overrun + 1 }
  /-- A frame closes and joins the queue (R58). -/
  | framed (c : Counts) (f : FrameItem) (free : c.held = false) (room : c.queue.length < 15) :
      Move c { c with closed := c.closed + 1, queue := c.queue ++ [.frame f] }
  /-- A command takes the place it was granted (R182). -/
  | commanded (c : Counts) (i : CommandItem) (held : c.held = true) :
      Move c { c with queue := c.queue ++ [.command i], held := false }
  /-- A marker joins where none is queued (R110). -/
  | marked (c : Counts) (fresh : .marker ∉ c.queue) : Move c { c with queue := c.queue ++ [.marker] }
  /-- The engine takes a frame item (R119). -/
  | frameTaken (c : Counts) (f : FrameItem) (rest : List WorkItem) (front : c.queue = .frame f :: rest) :
      Move c { c with queue := rest, processed := c.processed + 1 }
  /-- The engine takes a marker or a command (R111). -/
  | itemTaken (c : Counts) (it : WorkItem) (rest : List WorkItem) (front : c.queue = it :: rest)
      (other : isFrame it = false) : Move c { c with queue := rest }
  /-- A bus reset empties the queue but for a marker (R131). -/
  | emptied (c : Counts) : Move c { c with
      queue := c.queue.filter isMarker, dropped := c.dropped + BitVec.ofNat 32 (c.queue.countP isFrame), held := false }
  /-- A power-on reset (R24). -/
  | poweredOn (c : Counts) : Move c ⟨0, 0, 0, 0, 0, [], false⟩

/-- Moves one after the other. -/
abbrev Moves : Counts → Counts → Prop := Relation.ReflTransGen Move

theorem Moves.of_eq {c d : Counts} (h : d = c) : Moves c d := h ▸ .refl

theorem Move.moves {c d e : Counts} (h : Move c d) (he : e = d) : Moves c e := he ▸ .single h

/-! ### What leaves them as they were -/

theorem counts_of_reports {s t : State} (h : ReportsFrom s t) : counts t = counts s := by
  have hc : t.path.current = s.path.current := by rw [h.path]
  have hw : commandWriteHeld t = commandWriteHeld s := by rw [commandWriteHeld, hc, commandWriteHeld]
  unfold counts
  rw [h.asm, h.engine, hw]

@[simp] theorem counts_raiseCause (c : Cause) (s : State) : counts (raiseCause c s) = counts s := rfl
@[simp] theorem counts_joinQueue (it : OwnItem) (s : State) : counts (joinQueue it s) = counts s := rfl
@[simp] theorem counts_leaveQueue (s : State) : counts (leaveQueue s) = counts s := rfl
@[simp] theorem counts_setRecord (r : Fin 28) (x : PubRecord) (s : State) : counts (setRecord r x s) = counts s := rfl
@[simp] theorem counts_setProgress (pr : Progress) (s : State) : counts (setProgress pr s) = counts s := rfl
@[simp] theorem counts_setSizePending (b : Bool) (s : State) : counts (setSizePending b s) = counts s := rfl
@[simp] theorem counts_freePort (s : State) : counts (freePort s) = counts s := rfl
@[simp] theorem counts_unlock (s : State) : counts (unlock s) = counts s := rfl
@[simp] theorem counts_issue (i : Issuer) (a : Access) (s : State) : counts (issue i a s) = counts s := rfl
@[simp] theorem counts_releasePlace (s : State) : counts (releasePlace s) = counts s := rfl
@[simp] theorem counts_setPoint (p : Fin 16) (r : PointRecord) (s : State) : counts (setPoint p r s) = counts s := rfl
@[simp] theorem counts_modifyPoint (p : Fin 16) (f : PointRecord → PointRecord) (s : State) :
    counts (modifyPoint p f s) = counts s := rfl
@[simp] theorem counts_setSlot (r : Fin 8) (x : RemoteSlot) (s : State) : counts (setSlot r x s) = counts s := rfl
@[simp] theorem counts_setJob (j : Option Job) (s : State) : counts (setJob j s) = counts s := rfl
@[simp] theorem counts_modifyJob (f : Job → Job) (s : State) : counts (modifyJob f s) = counts s := rfl
@[simp] theorem counts_setAssembly (tag : Fin 8) (r : Option OpenFrame) (s : State) :
    counts (setAssembly tag r s) = counts s := rfl
@[simp] theorem counts_setSegment (g : Fin 8) (x : Segment) (s : State) : counts (setSegment g x s) = counts s := rfl
@[simp] theorem counts_setArmed (e : Fin 64) (b : Bool) (s : State) : counts (setArmed e b s) = counts s := rfl
@[simp] theorem counts_setProving (r : ProvingState) (s : State) : counts (setProving r s) = counts s := rfl
@[simp] theorem counts_setSample (w : SampleWork) (s : State) : counts (setSample w s) = counts s := rfl
@[simp] theorem counts_countToDisabled (s : State) : counts (countToDisabled s) = counts s := rfl
@[simp] theorem counts_countReload (refused failed : Nat) (s : State) : counts (countReload refused failed s) = counts s := rfl
@[simp] theorem counts_resetDigest (s : State) : counts (resetDigest s) = counts s := rfl

@[simp] theorem counts_requestPublication (r : Fin 28) (s : State) : counts (requestPublication r s) = counts s :=
  counts_of_reports (requestPublication_reports r s)

@[simp] theorem counts_reserve (by_ : Requester) (kind : DigestKind) (body : List Word) (s : State) :
    counts (reserve by_ kind body s) = counts s :=
  counts_of_reports (reserve_reports by_ kind body s)

@[simp] theorem counts_entryWritten (position : Nat) (words : List Word) (s : State) :
    counts (entryWritten position words s) = counts s :=
  counts_of_reports (entryWritten_reports position words s)

@[simp] theorem counts_captureAccess (tag : BitVec 4) (kind : FaultKind) (size : Size) (addr : Addr) (reason : FaultReason)
    (s : State) : counts (captureAccess tag kind size addr reason s) = counts s :=
  (counts_of_reports (captureAccess_spec tag kind size addr reason s)).trans rfl

@[simp] theorem counts_offerArithFault (target : BitVec 4) (role : Role) (f : FrameItem) (step : ArithStep) (kinds : Kinds)
    (s : State) : counts (offerArithFault target role f step kinds s) = counts s :=
  (counts_of_reports (offerArithFault_reports target role f step kinds s)).trans rfl

@[simp] theorem counts_mark (t : Target) (s : State) : counts (mark t s) = counts s := by
  unfold mark
  repeat' split
  all_goals rfl

@[simp] theorem counts_raiseHit (c : Option (Fin 32)) (s : State) : counts (raiseHit c s) = counts s := by
  unfold raiseHit
  split <;> rfl

@[simp] theorem counts_disarm (mode : CaptureMode) (e : Fin 64) (s : State) : counts (disarm mode e s) = counts s := by
  unfold disarm
  split <;> rfl

@[simp] theorem counts_oweStatus (slot : Fin 8) (word : Word) (s : State) : counts (oweStatus slot word s) = counts s := by
  unfold oweStatus
  split <;> rfl

@[simp] theorem counts_tear (tag : Fin 8) (s : State) : counts (tear tag s) = counts s := by
  unfold tear
  split
  · rfl
  · exact counts_mark _ _

@[simp] theorem counts_tearUnfit (tag : Fin 8) (f : OpenFrame) (s : State) : counts (tearUnfit tag f s) = counts s :=
  counts_mark _ _

theorem counts_foldl {α : Type} (f : State → α → State) (hf : ∀ s x, counts (f s x) = counts s) (l : List α) (s : State) :
    counts (l.foldl f s) = counts s :=
  List.foldlRecOn l f (motive := fun t => counts t = counts s) rfl fun _ h x _ => (hf _ x).trans h

/-! ### Loads -/

@[simp] theorem counts_loadPoint (p : Fin 16) (new : Loaded PointEntry) (s : State) : counts (loadPoint p new s) = counts s := by
  unfold loadPoint
  dsimp only
  split
  · rfl
  · exact counts_requestPublication _ _

@[simp] theorem counts_loadSegment (g : Fin 8) (new : Loaded SegmentEntry) (s : State) :
    counts (loadSegment g new s) = counts s := by
  unfold loadSegment
  dsimp only
  rw [counts_requestPublication]
  split
  · rfl
  · exact (counts_raiseCause _ _).trans (counts_reserve _ _ _ _)

theorem counts_tearIfChanged (old new : Vector SampleWindow 4) (s : State) (tag : Fin 8) :
    counts (tearIfChanged old new s tag) = counts s := by
  unfold tearIfChanged
  split
  · rfl
  · split
    · exact counts_tear _ _
    · rfl

/-- A change of the windows may void held words; it ends no write. -/
theorem counts_applyWindows (old new : Vector SampleWindow 4) (s : State) : counts (applyWindows old new s) = counts s := by
  have h := counts_foldl _ (counts_tearIfChanged old new) allTags s
  unfold applyWindows
  dsimp only
  split
  next t access holds hc =>
    rw [← h]
    simp only [counts, commandWriteHeld, hc]
  next => exact h

theorem counts_applyRing (old new : Nat) (s : State) : counts (applyRing old new s) = counts s := by
  unfold applyRing
  split <;> rfl

theorem counts_applyEnable (old new : Bool) (s : State) : counts (applyEnable old new s) = counts s := by
  unfold applyEnable
  split
  · rfl
  · split
    · rw [counts_reserve]
      exact counts_foldl _ (fun s p => counts_mark (.point p) s) _ _
    · rfl

theorem counts_loadGlobal (new : Loaded GlobalSettings) (s : State) : counts (loadGlobal new s) = counts s := by
  unfold loadGlobal
  dsimp only
  rw [counts_applyEnable]
  show counts (applyRing _ _ _) = _
  rw [counts_applyRing, counts_applyWindows]
  rfl

@[simp] theorem counts_loadEntry (pos : EntryPos) (ws : List Word) (s : State) : counts (loadEntry pos ws s) = counts s := by
  cases pos with
  | globalSettings => exact counts_loadGlobal _ _
  | point p => exact counts_loadPoint _ _ _
  | segment g => exact counts_loadSegment _ _ _
  | band | checker | conversion | slot | classification => rfl

/-! ### The engine's stages -/

theorem counts_lookupSample (p : Fin 16) (f : FrameItem) (d : Derived) (s : State) :
    counts (lookupSample p f d s).1 = counts s := by
  unfold lookupSample
  dsimp only
  split
  · rfl
  · split <;> simp

theorem counts_abandonSample (p : Fin 16) (role : Role) (f : FrameItem) (step : ArithStep) (kinds : Kinds) (s : State) :
    counts (abandonSample p role f step kinds s) = counts s := by
  simp [abandonSample]

theorem counts_processSample (w : FrameWork) (l : LookupResult) (e : PointEntry) (s : State) :
    counts (processSample w l e s).1 = counts s := by
  unfold processSample
  dsimp only
  split
  · exact counts_abandonSample _ _ _ _ _ _
  · exact counts_lookupSample _ _ _ _

theorem counts_intakeSummary (r : Fin 8) (e : SlotEntry) (potency : Kinds) (f : FrameItem) (s : State) :
    counts (intakeSummary r e potency f s) = counts s := by
  unfold intakeSummary
  dsimp only
  split
  · exact counts_offerArithFault _ _ _ _ _ _
  · split <;> rfl

theorem counts_intakeStage (w : FrameWork) (l : LookupResult) (s : State) : counts (intakeStage w l s) = counts s := by
  unfold intakeStage
  split
  · split
    · split
      · exact counts_intakeSummary _ _ _ _ _
      · rfl
    · rfl
  · split
    · split
      · exact counts_intakeSummary _ _ _ _ _
      · rfl
    · rfl
  · rfl
  · rfl

theorem counts_relayStage (w : FrameWork) (l : LookupResult) (s : State) : counts (relayStage w l s).1 = counts s := by
  unfold relayStage
  split
  · split <;> rfl
  · rfl

theorem counts_dispatchFrame (w : FrameWork) (s : State) : counts (dispatchFrame w s).1 = counts s := by
  unfold dispatchFrame
  split
  · rfl
  · split
    · rfl
    · split
      · exact (counts_relayStage _ _ _).trans (counts_intakeStage _ _ _)
      · split
        · split
          · exact counts_processSample _ _ _ _
          · rfl
        · rfl

theorem counts_skipNaN (p : Fin 16) (s : State) : counts (skipNaN p s) = counts s := by simp [skipNaN]

theorem counts_feedRun (feed : Feed) (volume : F64) (s : State) : counts (feedRun feed volume s) = counts s := by
  cases feed <;> rfl

theorem counts_incrementVelocity (w : FrameWork) (wk : SampleWork) (e : PointEntry) (p : Fin 16) (v : F64) (s : State) :
    counts (incrementVelocity w wk e p v s) = counts s := by
  unfold incrementVelocity
  extract_lets r time inc feed x s1
  split
  · exact counts_abandonSample _ _ _ _ _ _
  · split
    · exact counts_skipNaN _ _
    · exact counts_feedRun _ _ _

theorem counts_accumulateVelocity (w : FrameWork) (wk : SampleWork) (e : PointEntry) (p : Fin 16) (v : F64) (s : State) :
    counts (accumulateVelocity w wk e p v s) = counts s := by
  unfold accumulateVelocity
  dsimp only
  split
  · exact counts_skipNaN _ _
  · split
    · rfl
    · split
      · simp [timeGap]
      · exact counts_incrementVelocity _ _ _ _ _ _

theorem counts_accumulate (w : FrameWork) (wk : SampleWork) (l : LookupResult) (e : PointEntry) (s : State) :
    counts (accumulate w wk l e s) = counts s := by
  unfold accumulate
  dsimp only
  split
  · rfl
  · split
    · exact counts_accumulateVelocity _ _ _ _ _ _
    · split
      · exact counts_skipNaN _ _
      · rfl
    · split
      · exact counts_skipNaN _ _
      · rfl
    · split
      · exact counts_skipNaN _ _
      · rfl

theorem counts_frameEffects (w : FrameWork) (s : State) : counts (frameEffects w s) = counts s := by
  unfold frameEffects
  split
  · rw [counts_accumulate]
    split <;> rfl
  · rfl

theorem counts_segmentStep (g : Fin 8) (view : MarkerView) (s : State) : counts (segmentStep g view s).1 = counts s := by
  unfold segmentStep
  split
  · rfl
  · split <;> rfl

theorem counts_provingClose (s : State) : counts (provingClose s).1 = counts s := by
  unfold provingClose
  dsimp only
  split <;> rfl

theorem counts_enterStage (st : Stage) (s t : State) (acts : List Act) (h : enterStage st s = some (t, acts)) :
    counts t = counts s := by
  unfold enterStage at h
  split at h
  case h_9 =>
    split at h
    · split at h
      · cases h
      · cases h
        rfl
    · cases h
      rfl
  all_goals
    obtain ⟨rfl, -⟩ := Prod.mk.inj (Option.some.inj h)
  case h_1 w _ _ _ _ _ => exact counts_dispatchFrame _ _
  case h_2 w _ _ _ _ _ => exact counts_frameEffects _ _
  case h_3 => exact counts_segmentStep _ _ _
  case h_5 => exact counts_provingClose _
  all_goals rfl

theorem counts_execAct (a : Act) (s : State) : counts (execAct a s) = counts s := by
  by_cases h : a = .countRelayed
  · subst h
    rfl
  · exact counts_of_reports (execAct_reports a s h)

/-- The engine's run leaves the work queue and the counts to what begins it. -/
@[simp] theorem counts_runJob (acts : List Act) (stages : List Stage) (s : State) :
    counts (runJob acts stages s) = counts s :=
  runJob_keeps (fun t => counts t = counts s) (fun a t h => (counts_execAct a t).trans h)
    (fun st t u acts h he => (counts_enterStage st t u acts he).trans h) (fun _ _ h => h) acts stages s rfl

@[simp] theorem counts_resumeEngine (s : State) : counts (resumeEngine s) = counts s := by
  unfold resumeEngine
  split
  · rfl
  · exact counts_runJob _ _ _

end Sys2Proof.Machine.MeasurementPoints
end

section
/-! SUPPORT. Every command is made of those moves, and so is every step (R1 to R25, R108 to R112, R130, R131, R181 to R183). -/
namespace Sys2Proof.Machine.MeasurementPoints
open Sys2Proof.Machine.SampleFrames Sys2Proof.Machine.Classification

/-! ### The current transaction -/

/-- The transaction waits as the write of a command that holds a place. -/
def phaseHolds : Phase → Bool
  | .fetch (.command _) _ _ | .held (.command _) _ _ => true
  | .fetch (.commit _) _ _ | .held (.commit _) _ _ | .pass _ _ | .locked _ => false

theorem commandWriteHeld_current {s : State} {t : Transaction} {ph : Phase} (h : s.path.current = some ⟨t, ph⟩) :
    commandWriteHeld s = phaseHolds ph := by
  unfold commandWriteHeld
  rw [h]
  cases ph with
  | fetch purpose f carried => cases purpose <;> rfl
  | held purpose words attempts => cases purpose <;> rfl
  | pass access holds => rfl
  | locked attempts => rfl

theorem released_of_free {c : Counts} (h : c.held = false) : { c with held := false } = c := by
  cases c
  cases h
  rfl

@[simp] theorem counts_complete (code : Code) (data : List Word) (s : State) :
    counts (complete code data s) = { counts s with held := false } := by
  unfold complete
  split
  next h =>
    refine (released_of_free ?_).symm
    simp only [counts, commandWriteHeld, h]
  next => rfl

@[simp] theorem counts_refuse (t : Transaction) (reason : FaultReason) (s : State) :
    counts (refuse t reason s) = { counts s with held := false } := by
  simp [refuse]

@[simp] theorem counts_refuseHeld (t : Transaction) (reason : FaultReason) (s : State) :
    counts (refuseHeld t reason s) = { counts s with held := false } := by
  simp [refuseHeld]

theorem counts_becomeCurrent (t : Transaction) (s : State) :
    counts (becomeCurrent t s) = { counts s with held := false } := rfl

theorem counts_setPhase_of {s : State} {t : Transaction} {ph : Phase} (h : s.path.current = some ⟨t, ph⟩) (p : Phase) :
    counts (setPhase p s) = { counts s with held := phaseHolds p } := by
  have hc : (setPhase p s).path.current = some ⟨t, p⟩ := by rw [setPhase_path p s _ h]
  simp only [counts, commandWriteHeld_current hc, setPhase_asm, setPhase_engine]

theorem setPhase_cases (p : Phase) (s : State) :
    setPhase p s = s ∨ counts (setPhase p s) = { counts s with held := phaseHolds p } := by
  cases h : s.path.current with
  | none => exact .inl (by simp only [setPhase, h])
  | some c => exact .inr (counts_setPhase_of h p)

/-- A phase in which no place is held. -/
theorem moves_setPhase (p : Phase) (s : State) (hp : phaseHolds p = false) : Moves (counts s) (counts (setPhase p s)) := by
  obtain h | h := setPhase_cases p s
  · exact .of_eq (by rw [h])
  · rw [hp] at h
    exact (Move.released _).moves h

/-- A transaction that goes on for the same purpose. -/
theorem counts_setPhase_same {s : State} {t : Transaction} {ph : Phase} (h : s.path.current = some ⟨t, ph⟩) (p : Phase)
    (hp : phaseHolds p = phaseHolds ph) : counts (setPhase p s) = counts s := by
  rw [counts_setPhase_of h, hp, ← commandWriteHeld_current h]
  rfl

/-! ### Arrival -/

theorem counts_holdFirst (tag : Fin 8) (a : Addr) (word : Word) (s : State) :
    counts (holdFirst tag a word s).2.2 = counts s := by
  unfold holdFirst
  dsimp only
  split
  · rfl
  · dsimp only
    split
    · exact counts_tear _ _
    · rfl

theorem counts_holdSecond (tag : Fin 8) (a : Addr) (word : Word) (holds : List WordHold) (s : State) :
    counts (holdSecond tag a word holds s).2.2 = counts s := by
  unfold holdSecond
  split
  · rfl
  · dsimp only
    split
    · exact counts_tear _ _
    · rfl

theorem moves_holdForAssembler (t : Transaction) (s : State) : Moves (counts s) (counts (holdForAssembler t s)) := by
  unfold holdForAssembler
  split
  · dsimp only
    rw [← counts_holdFirst t.tag t.addr t.data0 s, ← counts_holdSecond t.tag (nextWord t.addr) t.data1]
    exact moves_setPhase _ _ rfl
  · dsimp only
    rw [← counts_holdFirst t.tag t.addr t.data0 s]
    exact moves_setPhase _ _ rfl
  · split
    · exact .of_eq (counts_tear _ _)
    · exact .refl

/-- A command write is granted a place only where fewer than 15 items are queued (R181). -/
theorem moves_offerCommand (slot : Fin 8) (carried : List Word) (s : State) :
    Moves (counts s) (counts (offerCommand slot carried s)) := by
  unfold offerCommand
  split
  · exact (Move.released _).moves (counts_complete _ _ _)
  next h =>
    have room : (counts s).queue.length < 15 := Nat.lt_of_not_le (not_or.mp h).2
    unfold startFetch
    obtain h | h := setPhase_cases (.fetch (.command slot) (Fetch.start (fetchLength (.command slot) carried)) carried)
      { s with cmd := { s.cmd with granted := some slot } }
    · exact .of_eq (by rw [h]; rfl)
    · exact (Move.granted _ room).moves h

theorem moves_decodeWrite (t : Transaction) (s : State) : Moves (counts s) (counts (decodeWrite t s)) := by
  have refused (reason : FaultReason) : Moves (counts s) (counts (refuse t reason s)) :=
    (Move.released _).moves (counts_refuse _ _ _)
  have fetched : Moves (counts s) (counts (holdForFetch t s)) := by
    unfold holdForFetch
    split
    · exact moves_setPhase _ _ rfl
    · exact moves_offerCommand _ _ _
    · exact moves_holdForAssembler _ _
  unfold decodeWrite
  split
  · split
    · exact refused _
    · split
      · exact refused _
      · split
        · exact refused _
        · exact fetched
  · exact moves_holdForAssembler _ _

theorem moves_decodeLockRead (t : Transaction) (s : State) : Moves (counts s) (counts (decodeLockRead t s)) := by
  unfold decodeLockRead
  split
  · exact (Move.released _).moves (counts_refuse _ _ _)
  · split
    · exact .of_eq (counts_tear _ _)
    · exact .refl

section Arrival

variable {t : Transaction} {decode : State → State} (hd : ∀ s, Moves (counts s) (counts (decode s)))
include hd

theorem moves_screen (s : State) : Moves (counts s) (counts (screen t decode s)) := by
  have released (u v : State) (hu : counts u = counts s) (hv : counts v = { counts u with held := false }) :
      Moves (counts s) (counts v) := (Move.released _).moves (by rw [hv, hu])
  unfold screen
  split
  · unfold lockedMaster
    split
    · exact moves_setPhase _ _ rfl
    · exact released (unlock s) _ rfl (counts_refuse _ _ _)
  · split
    · exact released { s with irq := dropCause (lowestCause s.irq) s.irq } _ rfl (counts_complete _ _ _)
    · exact released s _ rfl (counts_refuse _ _ _)
    · split
      · exact released s _ rfl (counts_complete _ _ _)
      · split
        · exact released s _ rfl (counts_complete _ _ _)
        · exact hd s
    all_goals
      split
      · exact released s _ rfl (counts_complete _ _ _)
      · exact hd s

theorem moves_arrive {fits : Bool} {s u : State} (h : arrive t fits decode s = .next u) : Moves (counts s) (counts u) := by
  unfold arrive at h
  split at h
  · split at h
    · cases h
      exact .refl
    · cases h
      exact .head (.released _) (moves_screen hd (becomeCurrent t s))
  · cases h

end Arrival

/-! ### The grant -/

theorem moves_grantPort (s : State) : Moves (counts s) (counts (grantPort s)) := by
  have pass (c : Current) : Moves (counts s) (counts (grantPass c s)) := by
    unfold grantPass
    split
    · exact (Move.released _).moves (counts_complete _ _ _)
    · split
      · exact (Move.released _).moves (counts_refuse _ _ _)
      · exact .refl
  have own (it : OwnItem) : Moves (counts s) (counts (grantOwn it s)) := by
    unfold grantOwn
    split
    · exact .refl
    · cases it <;> exact .refl
  unfold grantPort
  split
  · exact pass _
  · split
    · exact own _
    · exact pass _
  · split
    · exact .refl
    · exact own _
  · exact .refl

/-! ### Responses -/

theorem moves_respond {issuer : Issuer} {take : Access → State → State} {s : State}
    (h : ∀ access u, Moves (counts u) (counts (take access u))) : Moves (counts s) (counts (respond issuer take s)) := by
  unfold respond
  split
  · exact .refl
  · split
    · split
      · exact .refl
      · exact h _ (freePort s)
    · exact .refl

@[simp] theorem counts_reportRead (a : Addr) (s : State) : counts (reportRead a s) = counts s := by
  have release (i : Nat) : counts (releaseEntries i s) = counts s := by
    unfold releaseEntries
    dsimp only
    split
    · split <;> rfl
    · rfl
  unfold reportRead
  split
  · rfl
  · split
    · rfl
    · exact release _

/-- A frame that closes is counted in one of three ways; it joins only a queue of fewer than 15 items (R57, R58, R109). -/
theorem moves_closeFrame (tag : Fin 8) (good : Bool) (s : State) (h : commandWriteHeld s = false) :
    Moves (counts s) (counts (closeFrame tag good s)) ∧ commandWriteHeld (closeFrame tag good s) = false := by
  have step {d : Counts} {t : State} (hm : Move (counts s) d) (hf : d.held = false) (ht : counts t = d) :
      Moves (counts s) (counts t) ∧ commandWriteHeld t = false :=
    ⟨hm.moves ht, (congrArg Counts.held ht).trans hf⟩
  unfold closeFrame
  split
  · exact ⟨.refl, h⟩
  · dsimp only
    split
    · unfold offerFrame
      split
      · exact step (.overran _) h (counts_mark _ _)
      next hr => exact step (.framed (counts s) (frameItem tag _) h (Nat.lt_of_not_le hr)) h rfl
    · exact step (.failed _) h (counts_mark _ _)

theorem moves_settleWord (tag : Fin 8) (w : WordHold) (s : State) (h : commandWriteHeld s = false) :
    Moves (counts s) (counts (settleWord tag w s)) ∧ commandWriteHeld (settleWord tag w s) = false := by
  have same {t : State} (ht : counts t = counts s) : Moves (counts s) (counts t) ∧ commandWriteHeld t = false :=
    ⟨.of_eq ht, (congrArg Counts.held ht).trans h⟩
  unfold settleWord
  split
  · exact same rfl
  · dsimp only
    have ht : counts (if w.tearsAtDone then tear tag s else s) = counts s := by
      split
      · exact counts_tear _ _
      · rfl
    generalize (if w.tearsAtDone then tear tag s else s) = u at ht
    split
    · exact same ht
    · split
      · exact same ht
      · exact same ((counts_tearUnfit _ _ _).trans ht)
    · exact same ht
    · exact same ht
    · rw [← ht]
      exact moves_closeFrame _ _ _ ((congrArg Counts.held ht).trans h)

theorem moves_settleWords (tag : Fin 8) (holds : List WordHold) : ∀ s, commandWriteHeld s = false →
    Moves (counts s) (counts (settleWords tag holds s)) := by
  induction holds with
  | nil => exact fun _ _ => .refl
  | cons w rest ih =>
    intro s h
    obtain ⟨hm, hf⟩ := moves_settleWord tag w s h
    exact hm.trans (ih _ hf)

theorem moves_passResponse (t : Transaction) (holds : List WordHold) (first second : Response) (s : State)
    (h : commandWriteHeld s = false) : Moves (counts s) (counts (passResponse t holds first second s)) := by
  have completed (code : Code) (data : List Word) (u : State) (hu : Moves (counts s) (counts u)) :
      Moves (counts s) (counts (complete code data u)) :=
    hu.trans ((Move.released _).moves (counts_complete _ _ _))
  have read : Moves (counts s) (counts (reportRead t.addr s)) := .of_eq (counts_reportRead _ _)
  unfold passResponse
  split
  · split
    · exact completed _ _ _ read
    · split <;> exact completed _ _ _ read
    · exact completed _ _ _ .refl
    · exact completed _ _ _ (moves_settleWords _ _ _ h)
    · exact completed _ _ _ (moves_settleWords _ _ _ h)
    · exact completed _ _ _ .refl
    · exact completed _ _ _ .refl
  · exact completed _ _ _ .refl

theorem moves_fetchDone {t : Transaction} {purpose : Purpose} {f : Fetch} {carried : List Word} {s : State}
    (h : s.path.current = some ⟨t, .fetch purpose f carried⟩) (words : List Word) :
    Moves (counts s) (counts (fetchDone t purpose words s)) := by
  cases purpose with
  | command slot => exact .of_eq (counts_setPhase_same h _ rfl)
  | commit pos =>
    unfold fetchDone
    dsimp only
    split
    · exact (Move.released _).moves (counts_refuseHeld _ _ _)
    · split
      · exact moves_setPhase _ (setSizePending true s) rfl
      · exact moves_setPhase _ s rfl

theorem moves_heldFails (t : Transaction) (s : State) : Moves (counts s) (counts (heldFails t s)) :=
  (Move.released _).moves (counts_refuseHeld _ _ _)

/-- A command joins the queue in the place that its write held (R182). -/
theorem moves_heldDone {t : Transaction} {purpose : Purpose} {words : List Word} {attempts : Nat} {s : State}
    (h : s.path.current = some ⟨t, .held purpose words attempts⟩) :
    Moves (counts s) (counts (heldDone purpose words s)) := by
  cases purpose with
  | commit pos => exact (Move.released _).moves (by simp [heldDone])
  | command slot =>
    exact (Move.commanded _ _ (commandWriteHeld_current h)).moves (counts_complete _ _ (queueCommand slot words s))

theorem counts_itemFinished (it : OwnItem) (got : List Word) (s : State) : counts (itemFinished it got s) = counts s := by
  cases it with
  | publish r content => rfl
  | digest position words => exact counts_entryWritten _ _ _
  | outbound position words => rfl
  | status slot word => rfl
  | fetch pos =>
    show counts (decideFetch pos got s) = counts s
    unfold decideFetch
    split
    · exact counts_loadEntry _ _ _
    · rfl

theorem counts_itemFailed (it : OwnItem) (s : State) : counts (itemFailed it s) = counts s := by
  cases it with
  | publish r content => rfl
  | digest position words => exact counts_entryWritten _ _ _
  | outbound position words => rfl
  | status slot word => exact counts_oweStatus _ _ _
  | fetch pos => rfl

theorem counts_finishItem (it : OwnItem) (words : List Word) (s : State) : counts (finishItem it words s) = counts s :=
  (counts_resumeEngine _).trans (counts_itemFinished _ _ (leaveQueue s))

theorem counts_failItem (it : OwnItem) (access : Access) (s : State) : counts (failItem it access s) = counts s :=
  ((counts_resumeEngine _).trans (counts_itemFailed _ (leaveQueue _))).trans (counts_captureAccess _ _ _ _ _ s)

theorem counts_ownFetchResponse (it : OwnItem) (pr : Progress) (access : Access) (first second : Response) (s : State) :
    counts (ownFetchResponse it pr access first second s) = counts s := by
  unfold ownFetchResponse
  split
  · exact counts_failItem _ _ _
  · split
    · exact counts_finishItem _ _ _
    · rfl

theorem counts_ownWriteResponse (it : OwnItem) (pr : Progress) (access : Access) (first : Response) (s : State) :
    counts (ownWriteResponse it pr access first s) = counts s := by
  have retry : counts (if pr.fetch.attempts + 1 < Config.attempts then
      setProgress ⟨pr.finished, { pr.fetch with attempts := pr.fetch.attempts + 1 }⟩ s else failItem it access s) =
        counts s := by
    split
    · rfl
    · exact counts_failItem _ _ _
  unfold ownWriteResponse
  split
  · split
    · rfl
    · exact counts_finishItem _ _ _
  · exact retry
  · exact retry
  · exact counts_failItem _ _ _

/-! ### Places and resets -/

theorem counts_joinOffer (o : Offer) (s : State) : counts (joinOffer o s) = counts s := by cases o <;> rfl

theorem counts_givePlace (s : State) : counts (givePlace s) = counts s := by
  unfold givePlace
  split
  · rfl
  · exact counts_joinOffer _ (modifyJob _ s)
  · rfl
  · rfl
  · rfl

theorem counts_of_publisherFrom {s t : State} (h : PublisherFrom s t) : counts t = counts s := by
  rw [h]
  rfl

theorem counts_foldl_dropItem (queue : List WorkItem) : ∀ s, counts (queue.foldl dropItem s) =
    { counts s with dropped := (counts s).dropped + BitVec.ofNat 32 (queue.countP isFrame) } := by
  induction queue with
  | nil => exact fun s => by simp
  | cons it rest ih =>
    intro s
    have hd : counts (dropItem s it) =
        { counts s with dropped := (counts s).dropped + BitVec.ofNat 32 (if isFrame it = true then 1 else 0) } := by
      cases it with
      | frame f => exact counts_mark _ _
      | command c => simp [dropItem, isFrame]
      | marker => simp [dropItem, isFrame]
    rw [List.foldl_cons, ih, hd, List.countP_cons, BitVec.add_assoc, ← BitVec.ofNat_add, Nat.add_comm]

theorem counts_resetWorkQueue (s : State) : counts (resetWorkQueue s) = { counts s with
    queue := (counts s).queue.filter isMarker
    dropped := (counts s).dropped + BitVec.ofNat 32 ((counts s).queue.countP isFrame) } := by
  have hfilter : (fun it => it == WorkItem.marker) = isMarker := by
    funext it
    cases it <;> rfl
  have hq : counts (resetWorkQueue s) =
      { counts (s.engine.workQueue.foldl dropItem s) with queue := s.engine.workQueue.filter isMarker } := by
    rw [← hfilter]
    rfl
  rw [hq, counts_foldl_dropItem]
  rfl

theorem counts_resetEngine (s : State) : counts (resetEngine s) = counts s := by
  unfold resetEngine
  split
  · rfl
  next j _ =>
    rw [counts_resumeEngine]
    split
    · rfl
    · unfold offerAgain
      split
      · split
        · exact counts_joinOffer _ (modifyJob _ s)
        · rfl
      · rfl

/-- A bus reset ends the write in hand, drops the frames and keeps a marker (R25, R131). -/
theorem move_busReset (provingFirst : Bool) (s : State) : Move (counts s) (counts (busReset provingFirst s)) := by
  have hdiscard (s : State) (tag : Fin 8) : counts (discardFrame s tag) = counts s := by
    unfold discardFrame
    split
    · rfl
    · exact counts_mark _ _
  have hpoint (s : State) (p : Fin 16) : counts (resetPoint s p) = counts s := by
    unfold resetPoint
    split
    · exact counts_mark _ (modifyPoint p _ s)
    · rfl
  have hframes : counts (framesReset s) = { counts s with
      queue := (counts s).queue.filter isMarker
      dropped := (counts s).dropped + BitVec.ofNat 32 ((counts s).queue.countP isFrame)
      held := false } := by
    rw [framesReset, counts_foldl _ hpoint, counts_resetWorkQueue, counts_foldl _ hdiscard]
    rfl
  have hreport (returned torn : Nat) (u : State) : counts (reportReset provingFirst returned torn u) = counts u :=
    (counts_of_reports (reportReset_spec provingFirst returned torn u).1).trans rfl
  have hlost (u : State) : counts (s.engine.workQueue.foldl lostCommand u) = counts u :=
    counts_of_reports (foldl_lostCommand_statusesFrom _ u).reports
  have hreset : counts (busReset provingFirst s) = counts (framesReset s) := by
    show counts (resetEngine (s.engine.workQueue.foldl lostCommand
      (reportReset provingFirst _ _ (resetDigest (resetPublisher (framesReset s)))))) = _
    rw [counts_resetEngine, hlost, hreport, counts_resetDigest,
      counts_of_publisherFrom (resetPublisher_publisherFrom _)]
  rw [hreset, hframes]
  exact .emptied _

/-! ### The Window Timer -/

theorem markerQueued_iff (s : State) : markerQueued s = true ↔ .marker ∈ s.engine.workQueue := by
  simp [markerQueued]

theorem moves_offerMarker (s : State) : Moves (counts s) (counts (offerMarker s)) := by
  unfold offerMarker
  split
  · exact .refl
  next h => exact (Move.marked (counts s) (mt (markerQueued_iff s).mpr h)).moves rfl

/-! ### The engine takes an item -/

theorem moves_takeFrame {f : FrameItem} {rest : List WorkItem} {s : State} (h : s.engine.workQueue = .frame f :: rest) :
    Moves (counts s) (counts (takeFrame f rest s)) := by
  have hfirst (u : State) : counts (firstEffects f u).1 = counts u := by
    unfold firstEffects
    dsimp only
    split
    · rfl
    · split <;> simp
  rw [takeFrame_eq]
  exact (Move.frameTaken (counts s) f rest h).moves ((counts_runJob _ _ _).trans (hfirst _))

/-- What the engine has in hand is taken from the front of the queue (R111). -/
theorem moves_taken {it : WorkItem} {rest : List WorkItem} {s u : State} (h : s.engine.workQueue = it :: rest)
    (other : isFrame it = false) (hu : counts u = { counts s with queue := rest }) : Moves (counts s) (counts u) :=
  (Move.itemTaken (counts s) it rest h other).moves hu

theorem counts_closeWindows (s : State) : counts (closeWindows s) = counts s := by
  have hp (s : State) (p : Fin 16) : counts (closePoint s p) = counts s := by
    unfold closePoint
    split
    · split <;> rfl
    · rfl
  have hr (s : State) (r : Fin 8) : counts (closeSlot s r) = counts s := by
    unfold closeSlot
    split <;> rfl
  exact (counts_foldl _ hr _ _).trans (counts_foldl _ hp _ _)

theorem moves_takeMarker {rest : List WorkItem} {s : State} (h : s.engine.workQueue = .marker :: rest) :
    Moves (counts s) (counts (takeMarker rest s)) := by
  refine moves_taken h rfl ?_
  rw [takeMarker, counts_runJob, counts_closeWindows]
  rfl

theorem frontCommand_some {s : State} {c : CommandItem} {rest : List WorkItem} (h : frontCommand s = some (c, rest)) :
    CommandInFront c rest s := by
  unfold frontCommand at h
  split at h
  next hj hq =>
    cases h
    exact ⟨hj, hq⟩
  next => cases h

theorem moves_takeCommand {kind : Nat} {owner : CommandItem → State → OwnerResult}
    (ho : ∀ c s, counts (owner c s).state = counts s) (s : State) :
    Moves (counts s) (counts (takeCommand kind owner s)) := by
  unfold takeCommand
  split
  next c rest hc =>
    obtain ⟨-, hq⟩ := frontCommand_some hc
    split
    · refine moves_taken hq rfl ?_
      unfold carryOut
      dsimp only
      rw [counts_runJob]
      split
      · rfl
      · exact (ho _ _).trans rfl
    · exact .refl
  next => exact .refl

/-- An owner leaves the work queue to the engine (R183). -/
theorem counts_owners (c : CommandItem) (s : State) :
    counts (ownerClearTotals c s).state = counts s ∧ counts (ownerAckConditions c s).state = counts s
      ∧ counts (ownerStartProving c s).state = counts s ∧ counts (ownerEndProving c s).state = counts s
      ∧ counts (ownerArmCapture c s).state = counts s ∧ counts (ownerResetSegment c s).state = counts s := by
  refine ⟨?_, ?_, ?_, ?_, ?_, ?_⟩
  · unfold ownerClearTotals
    split
    · rfl
    · dsimp only
      split
      · rfl
      · exact counts_mark _ (modifyPoint _ _ s)
  · unfold ownerAckConditions
    dsimp only
    split
    · split <;> rfl
    · split <;> rfl
  · unfold ownerStartProving
    split <;> rfl
  · unfold ownerEndProving
    split
    · rfl
    · split <;> rfl
  · unfold ownerArmCapture
    split
    · rfl
    · dsimp only
      split <;> rfl
  · unfold ownerResetSegment
    split <;> rfl

/-! ### Every step -/

theorem moves_fetchAccessResponse (first second : Response) {s t : State}
    (h : exec (.fetchAccessResponse first second) s = .next t) : Moves (counts s) (counts t) := by
  obtain rfl := Host.Outcome.next.inj h
  refine moves_respond fun _ u => ?_
  split
  next txn purpose f carried hc =>
    split
    · exact (Move.released _).moves (counts_refuseHeld _ _ _)
    · split
      · exact moves_fetchDone hc _
      · exact .of_eq (counts_setPhase_same hc _ (by cases purpose <;> rfl))
  next => exact .refl

theorem moves_heldWriteResponse (r : Response) {s t : State} (h : exec (.heldWriteResponse r) s = .next t) :
    Moves (counts s) (counts t) := by
  obtain rfl := Host.Outcome.next.inj h
  refine moves_respond fun _ u => ?_
  split
  next txn purpose words attempts hc =>
    have retry : Moves (counts u) (counts (if attempts + 1 < Config.attempts then
        setPhase (.held purpose words (attempts + 1)) u else heldFails txn u)) := by
      split
      · exact .of_eq (counts_setPhase_same hc _ (by cases purpose <;> rfl))
      · exact moves_heldFails _ _
    split
    · exact moves_heldDone hc
    · exact retry
    · exact retry
    · exact moves_heldFails _ _
  next => exact .refl

theorem moves_lockedWriteResponse (r : Response) {s t : State} (h : exec (.lockedWriteResponse r) s = .next t) :
    Moves (counts s) (counts t) := by
  obtain rfl := Host.Outcome.next.inj h
  refine moves_respond fun _ u => ?_
  have completed (code : Code) : Moves (counts u) (counts (complete code [] (unlock u))) :=
    (Move.released _).moves (counts_complete _ _ (unlock u))
  have retry (attempts : Nat) : Moves (counts u) (counts (if attempts + 1 < Config.attempts then
      setPhase (.locked (attempts + 1)) u else complete .fault [] (unlock u))) := by
    split
    · exact moves_setPhase _ u rfl
    · exact completed _
  split
  · split
    · exact completed _
    · exact retry _
    · exact retry _
    · exact completed _
  · exact .refl

theorem moves_ownAccessResponse (first second : Response) {s t : State}
    (h : exec (.ownAccessResponse first second) s = .next t) : Moves (counts s) (counts t) := by
  obtain rfl := Host.Outcome.next.inj h
  refine moves_respond fun _ u => ?_
  split
  · split
    · exact .of_eq (counts_ownFetchResponse _ _ _ _ _ u)
    all_goals exact .of_eq (counts_ownWriteResponse _ _ _ _ u)
  · exact .refl

theorem moves_exec (i : Instr) {s t : State} (h : exec i s = .next t) : Moves (counts s) (counts t) := by
  cases i with
  | powerOnReset base tag =>
    cases h
    exact .single (.poweredOn _)
  | busReset provingFirst =>
    cases h
    exact .single (move_busReset _ _)
  | read | pairRead | lockWrite => exact moves_arrive (fun _ => .refl) h
  | vectorRead tag addr => exact moves_arrive (t := ⟨tag, .vectorRead, addr, .word, 0, 0⟩) (fits := true) (fun _ => .refl) h
  | write | pairWrite => exact moves_arrive (moves_decodeWrite _) h
  | lockRead => exact moves_arrive (moves_decodeLockRead _) h
  | portGrant =>
    cases h
    split
    · exact moves_grantPort s
    · exact .refl
  | passThroughResponse first second =>
    cases h
    refine moves_respond fun _ u => ?_
    split
    next txn access holds hc => exact moves_passResponse _ _ _ _ u (commandWriteHeld_current hc)
    next => exact .refl
  | fetchAccessResponse first second => exact moves_fetchAccessResponse _ _ h
  | heldWriteResponse r => exact moves_heldWriteResponse _ h
  | lockedWriteResponse r => exact moves_lockedWriteResponse _ h
  | ownAccessResponse first second => exact moves_ownAccessResponse _ _ h
  | windowPeriodExpiry =>
    replace h : execWindowPeriodExpiry s = .next t := h
    unfold execWindowPeriodExpiry at h
    split at h <;> cases h
    · exact moves_offerMarker s
    · exact .refl
  | queuePlaceGiven =>
    cases h
    split
    · exact .of_eq ((counts_resumeEngine _).trans (counts_givePlace s))
    · exact .refl
  | takeFrameItem =>
    replace h : execTakeFrameItem s = .next t := h
    unfold execTakeFrameItem at h
    split at h <;> cases h
    next hq => exact moves_takeFrame hq
    next => exact .refl
  | takeWindowCloseMarker =>
    replace h : execTakeWindowCloseMarker s = .next t := h
    unfold execTakeWindowCloseMarker at h
    split at h <;> obtain rfl := Host.Outcome.next.inj h
    next hq => exact moves_takeMarker hq
    next => exact .refl
  | clearTotals =>
    cases h
    exact moves_takeCommand (fun c s => (counts_owners c s).1) s
  | ackConditions =>
    cases h
    exact moves_takeCommand (fun c s => (counts_owners c s).2.1) s
  | startProving =>
    cases h
    exact moves_takeCommand (fun c s => (counts_owners c s).2.2.1) s
  | endProving =>
    cases h
    exact moves_takeCommand (fun c s => (counts_owners c s).2.2.2.1) s
  | armCapture =>
    cases h
    exact moves_takeCommand (fun c s => (counts_owners c s).2.2.2.2.1) s
  | resetSegment =>
    cases h
    exact moves_takeCommand (fun c s => (counts_owners c s).2.2.2.2.2) s
  | resyncDigest | clearFaults =>
    cases h
    exact moves_takeCommand (fun _ _ => rfl) s
  | reloadImage =>
    replace h : execReloadImage s = .next t := h
    unfold execReloadImage at h
    split at h
    next hc =>
      split at h <;> cases h
      · exact moves_taken (frontCommand_some hc).2 rfl (counts_runJob _ _ _)
      · exact .refl
    next =>
      cases h
      exact .refl
  | unknownCommand =>
    replace h : execUnknownCommand s = .next t := h
    unfold execUnknownCommand at h
    split at h
    next hc =>
      split at h <;> cases h
      · exact .refl
      · exact moves_taken (frontCommand_some hc).2 rfl (counts_runJob _ _ _)
    next =>
      cases h
      exact .refl
  | millisecondCountAdvance =>
    replace h : execMillisecondCountAdvance s = .next t := h
    unfold execMillisecondCountAdvance at h
    split at h <;> cases h <;> exact .refl

theorem moves_step {s t : State} (h : step s = .next t) : Moves (counts s) (counts t) := by
  unfold step at h
  split at h
  · cases h
    exact .refl
  next c rest _ => exact moves_exec (s := { s with pending := rest }) c h

/-- What every move keeps, every step keeps. -/
theorem keptByStep_of_moves {P : Counts → Prop} (hP : ∀ c d, Move c d → P c → P d) : KeptByStep (fun s => P (counts s)) := by
  intro s t h hs
  exact Relation.ReflTransGen.head_induction_on (motive := fun c _ => P c → P (counts t)) (moves_step hs) id
    (fun hm _ ih hc => ih (hP _ _ hm hc)) h

end Sys2Proof.Machine.MeasurementPoints
end

section
/-! The statements about the work queue and the counts of frames. -/
namespace Sys2Proof.Machine.MeasurementPoints

/-- The bound of the work queue (R108, R181), of what the moves change. -/
def Bounded (c : Counts) : Prop :=
  c.queue.countP (fun it => !isMarker it) ≤ 15 ∧ c.queue.countP isMarker ≤ 1
    ∧ (c.held = true → c.queue.countP (fun it => !isMarker it) ≤ 14)

/-- The law of frame counts (R130), of what the moves change. -/
def Lawful (c : Counts) : Prop :=
  c.closed = c.overrun + c.checkFailed + c.processed + c.dropped + BitVec.ofNat 32 (c.queue.countP isFrame)

theorem countP_append_one (p : WorkItem → Bool) (queue : List WorkItem) (it : WorkItem) :
    (queue ++ [it]).countP p = queue.countP p + (p it).toNat := by
  cases h : p it <;> simp [List.countP_append, h]

theorem Bounded.move {c d : Counts} (h : Move c d) (hc : Bounded c) : Bounded d := by
  obtain ⟨hitems, hmarkers, hheld⟩ := hc
  cases h with
  | released => exact ⟨hitems, hmarkers, fun h => nomatch h⟩
  | granted room => exact ⟨hitems, hmarkers, fun _ => List.countP_le_length.trans (Nat.le_of_lt_succ room)⟩
  | failed => exact ⟨hitems, hmarkers, hheld⟩
  | overran => exact ⟨hitems, hmarkers, hheld⟩
  | framed f free room =>
    have hroom : c.queue.countP (fun it => !isMarker it) < 15 := List.countP_le_length.trans_lt room
    simp only [Bounded, countP_append_one]
    exact ⟨hroom, hmarkers, fun h => absurd (free ▸ h) Bool.false_ne_true⟩
  | commanded i held =>
    simp only [Bounded, countP_append_one]
    exact ⟨Nat.succ_le_succ (hheld held), hmarkers, fun h => nomatch h⟩
  | marked fresh =>
    have hnone : c.queue.countP isMarker = 0 := by
      refine List.countP_eq_zero.mpr fun it hit hm => fresh ?_
      cases it with
      | marker => exact hit
      | frame f => cases hm
      | command i => cases hm
    simp only [Bounded, countP_append_one, hnone]
    exact ⟨hitems, Nat.le_refl 1, hheld⟩
  | frameTaken f rest front =>
    rw [front, List.countP_cons] at hitems hmarkers hheld
    simp only [Bounded]
    exact ⟨by omega, by omega, fun h => Nat.le_of_add_right_le (hheld h)⟩
  | itemTaken it rest front other =>
    rw [front, List.countP_cons] at hitems hmarkers hheld
    simp only [Bounded]
    exact ⟨by omega, by omega, fun h => Nat.le_of_add_right_le (hheld h)⟩
  | emptied =>
    refine ⟨?_, ?_, fun h => nomatch h⟩
    · simp [List.countP_filter]
    · simpa [List.countP_filter] using hmarkers
  | poweredOn => exact ⟨Nat.zero_le _, Nat.zero_le _, fun h => nomatch h⟩

theorem Lawful.move {c d : Counts} (h : Move c d) (hc : Lawful c) : Lawful d := by
  unfold Lawful at *
  cases h with
  | released => exact hc
  | granted room => exact hc
  | failed =>
    dsimp only
    rw [hc]
    ac_rfl
  | overran =>
    dsimp only
    rw [hc]
    ac_rfl
  | framed f free room =>
    dsimp only
    rw [hc, countP_append_one, BitVec.ofNat_add]
    exact BitVec.add_assoc _ _ _
  | commanded i held =>
    dsimp only
    rw [hc, countP_append_one]
    rfl
  | marked fresh =>
    dsimp only
    rw [hc, countP_append_one]
    rfl
  | frameTaken f rest front =>
    dsimp only
    rw [hc, front, List.countP_cons, BitVec.ofNat_add]
    show _ + (_ + 1#32) = _
    ac_rfl
  | itemTaken it rest front other =>
    dsimp only
    rw [hc, front, List.countP_cons, other]
    rfl
  | emptied =>
    have hnone : (c.queue.filter isMarker).countP isFrame = 0 := by
      refine List.countP_eq_zero.mpr fun it hit hf => ?_
      have hm := (List.mem_filter.mp hit).2
      cases it <;> simp [isMarker, isFrame] at hm hf
    dsimp only
    rw [hc, hnone]
    simp only [BitVec.add_assoc]
    simp
  | poweredOn => rfl

/-- Settles O52: each move keeps the bound, the places being counted at the grant. -/
theorem stepKeepsWorkQueueBound : Obligations.StepKeepsWorkQueueBound :=
  keptByStep_of_moves (P := Bounded) fun _ _ => Bounded.move

/-- Settles O53: each move adds the same number on both sides of the law. -/
theorem stepKeepsFrameLaw : Obligations.StepKeepsFrameLaw :=
  keptByStep_of_moves (P := Lawful) fun _ _ => Lawful.move

end Sys2Proof.Machine.MeasurementPoints
end

section
/-! The statements about the Window Timer and the condition mode. -/
namespace Sys2Proof.Machine.MeasurementPoints
open Sys2Proof.Machine.Classification

/-- Settles O35: the guards of both commands, and the offer of the marker by what is queued. -/
theorem timerAdvancesAndExpires : Obligations.TimerAdvancesAndExpires := by
  have stopped {t : TimerState} (h : t.running = false) (b : Bool) : ¬(t.running && b) = true := by simp [h]
  refine ⟨fun s period hp => ⟨fun hr hc => ?advances, fun hr => if_neg (stopped hr _)⟩, ?expires⟩
  case advances =>
    have hb : countBelowPeriod s.timer = true := by simpa [countBelowPeriod, hp] using hc
    exact if_pos (by rw [hr, hb]; rfl)
  case expires =>
    intro s period hp hc restarted
    have hat : countAtPeriod s.timer = true := by simp [countAtPeriod, hp, hc]
    have expiry (hr : s.timer.running = true) : exec .windowPeriodExpiry s =
        .next { offerMarker s with timer := ⟨(offerMarker s).timer.running, 0, some (offerMarker s).inEffect.period⟩ } :=
      if_pos (by rw [hr, hat]; rfl)
    refine ⟨fun hr hm => ?joins, fun hr hm => ?absorbed, fun hr => if_neg (stopped hr _)⟩
    case joins =>
      rw [expiry hr, offerMarker, if_neg (mt (markerQueued_iff s).mp hm)]
      simp only [hr]
      rfl
    case absorbed =>
      rw [expiry hr, offerMarker, if_pos ((markerQueued_iff s).mpr hm)]
      simp only [hr]
      rfl

theorem and_not_split (x y : BitVec 8) : x = x &&& y ||| x &&& ~~~y := by
  have hall : y ||| ~~~y = BitVec.allOnes 8 := by
    rw [BitVec.or_comm]
    exact BitVec.not_or_self y
  rw [← BitVec.and_or_distrib_left, hall, BitVec.and_allOnes]

/-- An operand within the six lookup conditions (Table 4-6). -/
theorem lookup_operand {operand : BitVec 8} (h : operand &&& ~~~lookupConditions = 0#8) :
    operand &&& lookupConditions = operand ∧ ~~~operand &&& ~~~lookupConditions = ~~~lookupConditions := by
  have hin := and_not_split operand lookupConditions
  have hout := and_not_split (~~~lookupConditions) operand
  rw [h, BitVec.or_zero] at hin
  rw [BitVec.and_comm _ operand, h, BitVec.zero_or, BitVec.and_comm] at hout
  exact ⟨hin.symm, hout.symm⟩

/-- Settles O50: without HOLD each mode by its operation on the six bits; with HOLD nothing changes. -/
theorem conditionModeApplied : Obligations.ConditionModeApplied := by
  intro mode operand r ho x six
  obtain ⟨hin, hout⟩ := lookup_operand ho
  have held (h : r.hold = true) : x = r := if_pos h
  have free (h : r.hold = false) : x = match mode with
      | .none => r
      | .raise => { r with conditions := r.conditions ||| operand }
      | .clear => { r with conditions := r.conditions &&& ~~~operand }
      | .replace => { r with conditions := r.conditions &&& ~~~lookupConditions ||| operand }
      | .replaceHold => { r with conditions := r.conditions &&& ~~~lookupConditions ||| operand, hold := true } :=
    if_neg (by simp [h])
  have replaced : six (r.conditions &&& ~~~lookupConditions ||| operand) = operand := by
    have hnone : ~~~lookupConditions &&& lookupConditions = 0#8 := by decide
    simp only [six, BitVec.and_or_distrib_right, hin, BitVec.and_assoc, hnone, BitVec.and_zero, BitVec.zero_or]
  have kept : (r.conditions &&& ~~~lookupConditions ||| operand) &&& ~~~lookupConditions =
      r.conditions &&& ~~~lookupConditions := by
    replace ho : operand &&& ~~~lookupConditions = 0#8 := ho
    rw [BitVec.and_or_distrib_right, ho, BitVec.or_zero, BitVec.and_assoc, BitVec.and_self]
  refine ⟨held, ?rest, ?modes, applyMode_frame mode operand r⟩
  case rest =>
    by_cases h : r.hold = true
    · rw [held h]
    · rw [free (Bool.eq_false_iff.mpr h)]
      cases mode with
      | none => rfl
      | raise =>
        replace ho : operand &&& ~~~lookupConditions = 0#8 := ho
        simp only [BitVec.and_or_distrib_right, ho, BitVec.or_zero]
      | clear => simp only [BitVec.and_assoc, hout]
      | replace => exact kept
      | replaceHold => exact kept
  case modes =>
    intro h
    refine ⟨?_, ?_, ?_, ?_, ?_⟩
    · rintro rfl
      exact free h
    · rintro rfl
      rw [free h]
      exact ⟨by simp only [six, BitVec.and_or_distrib_right, hin], h⟩
    · rintro rfl
      rw [free h]
      have hcomm : six (r.conditions &&& ~~~operand) = six r.conditions &&& ~~~operand := by
        simp only [six]
        ac_rfl
      exact ⟨hcomm, h⟩
    · rintro rfl
      rw [free h]
      exact ⟨replaced, h⟩
    · rintro rfl
      rw [free h]
      exact ⟨replaced, rfl⟩

end Sys2Proof.Machine.MeasurementPoints
end

section
/-! SUPPORT. What the engine's acts come to: the records they reserve, the causes and publications they ask for, how far they
go, and the places they need (R118, R146, R153, R164, R171). -/
namespace Sys2Proof.Machine.MeasurementPoints
open Sys2Proof.Machine.SampleFrames Sys2Proof.Machine.Classification

/-- An act that reports: it offers no item and counts none. -/
def isReport : Act → Bool
  | .digest _ _ | .await | .cause _ | .publish _ => true
  | .offer _ | .countRelayed => false

/-- The records that these acts ask for, with this release word. -/
def actReports (release : Word) (acts : List Act) : List Report :=
  acts.flatMap fun
    | .digest kind body => [⟨kind, body, release⟩]
    | .offer _ | .await | .cause _ | .publish _ | .countRelayed => []

/-- The publications that these acts ask for. -/
def actPublications (acts : List Act) : Nat :=
  acts.countP fun
    | .publish _ => true
    | .digest _ _ | .offer _ | .await | .cause _ | .countRelayed => false

theorem actReports_append (release : Word) (first second : List Act) :
    actReports release (first ++ second) = actReports release first ++ actReports release second :=
  List.flatMap_append

/-! ### What reports leave of the outbound items -/

theorem replaceContent_outbound (r : Fin 28) (content : List Word) (begun : Bool) (queue : List OwnItem) :
    (replaceContent r content begun queue).filter isOutbound = queue.filter isOutbound := by
  have hmap (q : List OwnItem) : (replaceContent r content false q).filter isOutbound = q.filter isOutbound := by
    simp only [replaceContent]
    induction q with
    | nil => rfl
    | cons it rest ih =>
      cases it with
      | publish r' c =>
        simp only [List.map_cons]
        split
        · exact ih
        · exact ih
      | outbound position words => exact congrArg (OwnItem.outbound position words :: ·) ih
      | digest | status | fetch => exact ih
  cases begun with
  | false => exact hmap queue
  | true =>
    cases queue with
    | nil => exact hmap []
    | cons it rest =>
      simp only [replaceContent, List.filter_cons]
      have := hmap rest
      simp only [replaceContent] at this
      split <;> rw [this]

theorem filter_outbound_append (queue : List OwnItem) {it : OwnItem} (h : isOutbound it = false) :
    (queue ++ [it]).filter isOutbound = queue.filter isOutbound := by
  simp [List.filter_append, h]

theorem requestPublication_outbound (r : Fin 28) (s : State) :
    (requestPublication r s).pub.queue.filter isOutbound = s.pub.queue.filter isOutbound := by
  unfold requestPublication
  dsimp only
  split
  · split
    · exact filter_outbound_append _ rfl
    · rfl
  · exact replaceContent_outbound _ _ _ _
  · rfl

theorem reserve_outbound (by_ : Requester) (kind : DigestKind) (body : List Word) (s : State) :
    (reserve by_ kind body s).pub.queue.filter isOutbound = s.pub.queue.filter isOutbound := by
  obtain ⟨-, -, ⟨_, _, hq, -⟩ | ⟨hq, -⟩⟩ := reserve_pub_cases by_ kind body s
  · rw [hq, filter_outbound_append _ rfl]
  · rw [hq]

/-! ### What acts that report have done -/

/-- An act that sets no cause: what it asks for is a publication. -/
def isPublication : Act → Bool
  | .publish _ | .await => true
  | .digest _ _ | .cause _ | .offer _ | .countRelayed => false

/-- The acts `done` have been carried out from `s` to `t`. -/
structure Acted (done : List Act) (s t : State) : Prop where
  reports : ReportsFrom s t
  engine : t.engine = s.engine
  stands : Stands s t
  reported : Reported (actReports (releaseWord s) done) s t
  asked : ∀ r, .publish r ∈ done → Asked r t
  raised : ∀ c, .cause c ∈ done → ∀ i, (c.mask &&& s.inEffect.causeEnable).getLsbD i = true → t.irq.getLsbD i = true
  quiet : (∀ a ∈ done, isPublication a = true) → t.irq = s.irq
  outbound : t.pub.queue.filter isOutbound = s.pub.queue.filter isOutbound
  index : t.pub.outboundIndex = s.pub.outboundIndex

theorem inEffect_of_reports {s t : State} (h : ReportsFrom s t) : t.inEffect = s.inEffect := by
  simp only [State.inEffect, h.settings]

/-- The release word is that of the window, whatever was reported. -/
theorem Acted.releaseWord {done : List Act} {s t : State} (h : Acted done s t) : releaseWord t = releaseWord s := by
  simp only [Machine.releaseWord, h.reports.timer, h.engine]

theorem Acted.refl (s : State) : Acted [] s s where
  reports := .refl s
  engine := rfl
  stands := .refl s
  reported := reported_nil rfl rfl
  asked := by simp
  raised := by simp
  quiet := fun _ => rfl
  outbound := rfl
  index := rfl

theorem Acted.trans {first second : List Act} {s t u : State} (h : Acted first s t) (k : Acted second t u) :
    Acted (first ++ second) s u where
  reports := h.reports.trans k.reports
  engine := k.engine.trans h.engine
  stands := h.stands.trans k.stands
  reported := by
    rw [actReports_append]
    refine reported_append h.reported ?_ k.stands (inEffect_of_reports h.reports)
    rw [← h.releaseWord]
    exact k.reported
  asked r hr := (List.mem_append.mp hr).elim (fun hr => k.stands.asked r (h.asked r hr)) (k.asked r)
  raised c hc i hi := by
    obtain hc | hc := List.mem_append.mp hc
    · exact k.stands.irq i (h.raised c hc i hi)
    · exact k.raised c hc i (by rwa [inEffect_of_reports h.reports])
  quiet hq := (k.quiet fun a ha => hq a (List.mem_append_right _ ha)).trans
    (h.quiet fun a ha => hq a (List.mem_append_left _ ha))
  outbound := k.outbound.trans h.outbound
  index := k.index.trans h.index

/-- Each act that reports, alone. -/
theorem acted_execAct (a : Act) (s : State) (h : isReport a = true) : Acted [a] s (execAct a s) := by
  cases a with
  | digest kind body =>
    exact {
      reports := reserve_reports _ _ _ _
      engine := reserve_engine _ _ _ _
      stands := reserve_stands _ _ _ _
      reported := reserve_reported _ _ _ _
      asked := by simp
      raised := by simp
      quiet := fun hq => nomatch hq _ List.mem_cons_self
      outbound := reserve_outbound _ _ _ _
      index := (reserve_pub_cases _ _ _ _).1 }
  | await =>
    exact { Acted.refl s with
      asked := by simp
      raised := by simp
      quiet := fun _ => rfl }
  | cause c =>
    exact {
      reports := raiseCause_reports _ _
      engine := rfl
      stands := raiseCause_stands _ _
      reported := reported_nil rfl rfl
      asked := by simp
      raised := fun d hd i hi => by
        obtain rfl : d = c := by simpa using hd
        show (s.irq ||| (d.mask &&& s.inEffect.causeEnable)).getLsbD i = true
        rw [BitVec.getLsbD_or, hi, Bool.or_true]
      quiet := fun hq => nomatch hq _ List.mem_cons_self
      outbound := rfl
      index := rfl }
  | publish r =>
    obtain ⟨hring, hlost, -, hirq, hasked, -⟩ := requestPublication_pub r s
    exact {
      reports := requestPublication_reports _ _
      engine := requestPublication_engine _ _
      stands := requestPublication_stands _ _
      reported := reported_nil hring hlost
      asked := fun q hq => by
        obtain rfl : q = r := by simpa using hq
        exact hasked
      raised := by simp
      quiet := fun _ => hirq
      outbound := requestPublication_outbound _ _
      index := requestPublication_outboundIndex _ _ }
  | offer o => cases h
  | countRelayed => cases h

/-- Acts that report are carried out up to an `await` at which the engine waits, or to their end. -/
theorem runActs_acted (acts : List Act) : ∀ s, (∀ a ∈ acts, isReport a = true) →
    ∃ done, acts = done ++ (runActs acts s).2 ∧ Acted done s (runActs acts s).1
      ∧ ((runActs acts s).2 = [] ∨ ∃ more, (runActs acts s).2 = .await :: more) := by
  induction acts with
  | nil => exact fun s _ => ⟨[], rfl, .refl s, .inl rfl⟩
  | cons a rest ih =>
    intro s h
    obtain ⟨ha, hrest⟩ := List.forall_mem_cons.mp h
    unfold runActs
    split
    next hw => exact ⟨[], rfl, .refl s, .inr ⟨rest, by rw [hw.1]⟩⟩
    next =>
      obtain ⟨done, he, hacted, hleft⟩ := ih (execAct a s) hrest
      exact ⟨a :: done, by rw [List.cons_append, ← he], (acted_execAct a s ha).trans hacted, hleft⟩

/-- Acts that come to their end. -/
theorem runActs_done {acts : List Act} {s t : State} (h : ∀ a ∈ acts, isReport a = true) (hr : runActs acts s = (t, [])) :
    Acted acts s t := by
  obtain ⟨done, he, hacted, -⟩ := runActs_acted acts s h
  rw [hr, List.append_nil] at he
  rw [hr, ← he] at hacted
  exact hacted

/-! ### Places for what acts report (R164) -/

theorem engineWaits_eq {s : State} {j : Job} (hj : s.engine.job = some j) :
    engineWaits s = (j.offer.isSome || s.pub.heldDigests.any (·.byEngine)) := by
  simp only [engineWaits, engineOffer, hj, Option.bind_some]

theorem placesFor_mono {reports : List Report} {n m : Nat} {s : State} (h : PlacesFor reports m s) (hle : n ≤ m) :
    PlacesFor reports n s := by
  obtain ⟨hheld, hkept, hlen⟩ := h
  exact ⟨hheld, hkept, by omega⟩

/-- A record takes its own place. -/
theorem placesFor_reserve {kind : DigestKind} {body : List Word} {more : List Report} {n : Nat} {s : State}
    (h : PlacesFor (⟨kind, body, releaseWord s⟩ :: more) n s) : PlacesFor more n (reserve .engine kind body s) := by
  have hin := inEffect_of_reports (reserve_reports .engine kind body s)
  have hring := (reserve_reported .engine kind body s).1
  unfold PlacesFor at h ⊢
  simp only [ringAfter] at h hring
  rw [hin, hring]
  by_cases hc : s.pub.digest.sizePending = false ∧ s.pub.digest.occupied.length < s.inEffect.ringSize
  · have hcan : canReserve s = true := by simpa [canReserve] using hc
    simp only [if_pos hc, List.cons_ne_nil, false_or, List.length_cons] at h ⊢
    obtain ⟨-, hnone, hlen⟩ := h
    have hroom : digestRoom (keepReservation s) = true := by
      show (decide (s.pub.queue.length < 32) && s.pub.heldDigests.isEmpty) = true
      rw [hnone, List.isEmpty_nil, Bool.and_true, decide_eq_true_eq]
      omega
    have hpub : (reserve .engine kind body s).pub.heldDigests = []
        ∧ (reserve .engine kind body s).pub.queue.length = s.pub.queue.length + 1 := by
      simp only [reserve, hcan, if_true, checkThreshold_pub, offerDigest, hroom]
      exact ⟨hnone, List.length_append⟩
    rw [hpub.1, hpub.2]
    exact ⟨rfl, .inr rfl, by omega⟩
  · have hcan : canReserve s = false := by
      rw [Bool.eq_false_iff]
      simpa [canReserve] using hc
    have hpub : (reserve .engine kind body s).pub.heldDigests = s.pub.heldDigests
        ∧ (reserve .engine kind body s).pub.queue = s.pub.queue := by
      simp [reserve, hcan, checkThreshold_pub, loseReservation]
    rw [hpub.1, hpub.2]
    simpa only [if_neg hc] using h

/-- A publication takes one place at most. -/
theorem placesFor_publish {reports : List Report} {n : Nat} {s : State} (r : Fin 28) (h : PlacesFor reports (n + 1) s) :
    PlacesFor reports n (requestPublication r s) := by
  obtain ⟨hring, -, hheld, -⟩ := requestPublication_pub r s
  have hlen := requestPublication_queue_length_le r s
  unfold PlacesFor at h ⊢
  rw [inEffect_of_reports (requestPublication_reports r s), hring, hheld]
  obtain ⟨hnone, hkept, hplaces⟩ := h
  exact ⟨hnone, hkept, by omega⟩

/-- With places for all they report, the acts come to their end. -/
theorem runActs_places {j : Job} (hoffer : j.offer = none) (acts : List Act) : ∀ s, s.engine.job = some j →
    (∀ a ∈ acts, isReport a = true) → PlacesFor (actReports (releaseWord s) acts) (actPublications acts) s →
    ∃ t, runActs acts s = (t, []) ∧ PlacesFor [] 0 t := by
  induction acts with
  | nil => exact fun s _ _ h => ⟨s, rfl, h⟩
  | cons a rest ih =>
    intro s hj hr h
    obtain ⟨ha, hrest⟩ := List.forall_mem_cons.mp hr
    have hacted := acted_execAct a s ha
    have hwaits : engineWaits s = false := by
      rw [engineWaits_eq hj, hoffer, h.1]
      rfl
    have hnext : PlacesFor (actReports (releaseWord (execAct a s)) rest) (actPublications rest) (execAct a s) := by
      rw [hacted.releaseWord]
      cases a with
      | digest kind body => exact placesFor_reserve h
      | await => exact h
      | cause c => exact h
      | publish r =>
        have hcount : actPublications (.publish r :: rest) = actPublications rest + 1 := List.countP_cons_of_pos rfl
        rw [hcount] at h
        exact placesFor_publish r h
      | offer o => cases ha
      | countRelayed => cases ha
    obtain ⟨t, ht, hplaces⟩ := ih (execAct a s) (by rw [hacted.engine, hj]) hrest hnext
    refine ⟨t, ?_, hplaces⟩
    unfold runActs
    rw [if_neg (by simp [hwaits]), ht]

end Sys2Proof.Machine.MeasurementPoints
end

section
/-! SUPPORT. A command in hand: its acts, the report of its change and its status (R118, R146, R183, R185). -/
namespace Sys2Proof.Machine.MeasurementPoints
open Sys2Proof.Machine.SampleFrames Sys2Proof.Machine.Classification

/-! ### The status -/

theorem runActs_offer (o : Offer) (s : State) : runActs [.offer o, .await] s =
    if engineWaits (offerItem o s) then (offerItem o s, [.await]) else (offerItem o s, []) := by
  cases h : engineWaits (offerItem o s) <;> simp [runActs, execAct, h]

/-- The STATUS item joins and the engine is done; or it waits, with the item queued or in hand (R164, R185). -/
theorem runStages_answer_cases {slot : Fin 8} {word : Word} {j : Job} {s : State} (hj : s.engine.job = some j)
    (ho : j.offer = none) :
    let t := runStages [.answer slot word] s
    let joined := joinQueue (.status slot word) s
    (t = setJob none joined ∨ ∃ k, t = setJob (some k) joined ∨ t = setJob (some k) s)
      ∧ (PlacesFor [] 0 s → t = setJob none joined) := by
  intro t joined
  have ht : t = runJob [.offer (.status slot word), .await] [] s :=
    runStages_enter (st := .answer slot word) (x := (s, [.offer (.status slot word), .await])) rfl
  rw [runJob, runActs_offer] at ht
  cases hroom : hasRoom s with
  | true =>
    have hoffer : offerItem (.status slot word) s = joined := if_pos hroom
    have hwaits : engineWaits joined = s.pub.heldDigests.any (·.byEngine) := by
      rw [engineWaits_eq (s := joined) hj, ho]
      rfl
    rw [hoffer, hwaits] at ht
    cases hheld : s.pub.heldDigests.any (·.byEngine) with
    | true =>
      rw [hheld] at ht
      have hjob : joined.engine.job = some j := hj
      refine ⟨.inr ⟨{ j with acts := [.await], stages := [] }, .inl (ht.trans ?_)⟩, fun hp => absurd hp.1 (by simp [hheld])⟩
      show modifyJob _ joined = _
      rw [modifyJob, hjob]
      rfl
    | false =>
      rw [hheld] at ht
      exact ⟨.inl ht, fun _ => ht⟩
  | false =>
    have hoffer : offerItem (.status slot word) s = setJob (some { j with offer := some (.status slot word) }) s := by
      unfold offerItem
      rw [hroom, modifyJob, hj]
      rfl
    have hwaits : engineWaits (setJob (some { j with offer := some (.status slot word) }) s) = true := rfl
    rw [hoffer, hwaits] at ht
    refine ⟨.inr ⟨_, .inr ht⟩, fun hp => ?_⟩
    have hlen := hp.2.2
    have hfull : ¬s.pub.queue.length < 32 := of_decide_eq_false hroom
    exact absurd (Nat.lt_of_add_right_lt (Nat.lt_of_add_right_lt hlen)) hfull

/-- The end of a command leaves its reports and asks for nothing more. -/
structure Ended (s t : State) : Prop where
  reports : ReportsFrom s t
  stands : Stands s t
  digest : t.pub.digest = s.pub.digest
  digestLost : t.pub.digestLost = s.pub.digestLost
  irq : t.irq = s.irq

theorem ended_setJob (k : Option Job) (s : State) : Ended s (setJob k s) :=
  ⟨setJob_reports _ _, .of_eq rfl rfl, rfl, rfl, rfl⟩

theorem ended_joinQueue (it : OwnItem) (s : State) : Ended s (joinQueue it s) :=
  ⟨joinQueue_reports _ _, ⟨fun _ _ h => List.mem_append_left _ h, fun _ h => h, fun _ h => h, fun _ h => h⟩, rfl, rfl, rfl⟩

theorem Ended.trans {s t u : State} (h : Ended s t) (k : Ended t u) : Ended s u :=
  ⟨h.reports.trans k.reports, h.stands.trans k.stands, k.digest.trans h.digest, k.digestLost.trans h.digestLost,
    k.irq.trans h.irq⟩

theorem Ended.reported {reports : List Report} {s t u : State} (h : Reported reports s t) (hin : t.inEffect = s.inEffect)
    (k : Ended t u) : Reported reports s u := by
  have := reported_append h (reported_nil k.digest k.digestLost) k.stands hin
  rwa [List.append_nil] at this

theorem runStages_answer {slot : Fin 8} {word : Word} {j : Job} {s : State} (hj : s.engine.job = some j)
    (ho : j.offer = none) :
    let t := runStages [.answer slot word] s
    Ended s t ∧ (t.engine.job = none → OwnItem.status slot word ∈ t.pub.queue)
      ∧ (PlacesFor [] 0 s → t.engine.job = none ∧ t.pub.queue.getLast? = some (.status slot word)) := by
  intro t
  obtain ⟨hcases, hplaces⟩ : (t = setJob none (joinQueue (.status slot word) s)
      ∨ ∃ k, t = setJob (some k) (joinQueue (.status slot word) s) ∨ t = setJob (some k) s)
        ∧ (PlacesFor [] 0 s → t = setJob none (joinQueue (.status slot word) s)) := runStages_answer_cases hj ho
  clear_value t
  have hjoined (k : Option Job) : Ended s (setJob k (joinQueue (.status slot word) s)) :=
    (ended_joinQueue _ _).trans (ended_setJob _ _)
  refine ⟨?_, fun hn => ?_, fun hp => ?_⟩
  · obtain rfl | ⟨k, rfl | rfl⟩ := hcases
    · exact hjoined _
    · exact hjoined _
    · exact ended_setJob _ _
  · obtain rfl | ⟨k, rfl | rfl⟩ := hcases
    · exact List.mem_append_right _ List.mem_cons_self
    · cases hn
    · cases hn
  · rw [hplaces hp]
    exact ⟨rfl, List.getLast?_concat⟩

/-! ### The acts before it -/

/-- A command's acts and what ends it: the acts go as far as they can, and with places for what they report the status
joins behind. -/
theorem runJob_command {slot : Fin 8} {word : Word} {j : Job} {acts : List Act} {stages : List Stage} {s : State}
    (hj : s.engine.job = some j) (ho : j.offer = none) (hr : ∀ a ∈ acts, isReport a = true)
    (hend : ∀ v, v.engine = s.engine → runStages stages v = runStages [.answer slot word] v) :
    let t := runJob acts stages s
    ∃ done left v, acts = done ++ left ∧ (left = [] ∨ ∃ more, left = .await :: more) ∧ Acted done s v ∧ Ended v t
      ∧ (t.engine.job = none → left = [] ∧ OwnItem.status slot word ∈ t.pub.queue)
      ∧ (PlacesFor (actReports (releaseWord s) acts) (actPublications acts) s →
        t.engine.job = none ∧ t.pub.queue.getLast? = some (.status slot word)) := by
  intro t
  obtain ⟨done, hacts, hacted, hleft⟩ := runActs_acted acts s hr
  have hplaces := runActs_places ho acts s hj hr
  have ht : t = match runActs acts s with
    | (v, []) => runStages stages v
    | (v, left) => suspend left stages v := rfl
  clear_value t
  generalize runActs acts s = run at *
  obtain ⟨v, left⟩ := run
  have hvj : v.engine.job = some j := by rw [hacted.engine, hj]
  refine ⟨done, left, v, hacts, hleft, hacted, ?_⟩
  cases left with
  | nil =>
    replace ht : t = runStages stages v := ht
    rw [hend v hacted.engine] at ht
    obtain ⟨hended, hstatus, hlast⟩ := runStages_answer (slot := slot) (word := word) hvj ho
    rw [← ht] at hended hstatus hlast
    refine ⟨hended, fun hn => ⟨rfl, hstatus hn⟩, fun hp => ?_⟩
    obtain ⟨u, hu, hroom⟩ := hplaces hp
    obtain ⟨rfl, -⟩ := Prod.mk.inj hu
    exact hlast hroom
  | cons a more =>
    replace ht : t = suspend (a :: more) stages v := ht
    have hjob : t.engine.job ≠ none := by
      rw [ht]
      show v.engine.job.map _ ≠ none
      rw [hvj]
      exact Option.some_ne_none _
    refine ⟨ht ▸ ended_setJob _ _, fun hn => absurd hn hjob, fun hp => ?_⟩
    obtain ⟨u, hu, -⟩ := hplaces hp
    cases (Prod.mk.inj hu).2

/-- The records asked for stand before the first wait. -/
theorem actReports_done {release : Word} {a : Act} {rest done left : List Act} (h : a :: rest = done ++ left)
    (ha : a ≠ .await) (hleft : left = [] ∨ ∃ more, left = .await :: more) (hrest : actReports release rest = []) :
    actReports release done = actReports release (a :: rest) := by
  cases done with
  | nil =>
    obtain rfl | ⟨more, rfl⟩ := hleft
    · cases h
    · exact absurd (List.cons.inj h).1 ha
  | cons b d =>
    obtain ⟨rfl, hd⟩ := List.cons.inj h
    replace hd : rest = d ++ left := hd
    rw [hd, actReports_append, List.append_eq_nil_iff] at hrest
    have hcons (l : List Act) : actReports release (a :: l) = actReports release [a] ++ actReports release l :=
      actReports_append release [a] l
    rw [hcons d, hd, hcons (d ++ left), actReports_append release d, hrest.1, hrest.2]
    rfl

/-! ### Reports of points and segments as acts -/

theorem isReport_segmentReport (g : Fin 8) (o : Origins) (window : Word) (before : BitVec 3) (after : Segment) :
    ∀ a ∈ segmentReport g o window before after, isReport a = true := by
  unfold segmentReport
  split <;> simp [isReport]

theorem isReport_reportPoint (j : Job) (s : State) (p : Fin 16) : ∀ a ∈ reportPoint j s p, isReport a = true := by
  unfold reportPoint
  dsimp only
  split <;> simp [isReport]

/-- The body of a segment's CONDITION record, field by field. -/
theorem segmentCondition_body (g : Fin 8) (o : Origins) (window : Word) (before : BitVec 3) (after : Segment) :
    segmentConditionBody g o window before after =
      [packed ([(1, 0), (g.val, 4)] ++ originFields o), window,
        packed [(before.toNat, 0), (after.conditions.toNat, 8)], narrow after.sum, ringWord after.lastDifference] := by
  have hg := g.isLt
  have hb := before.isLt
  simp only [segmentConditionBody, List.cons_append, List.nil_append]
  rw [packed_cons _ _ _ 4 (by omega) (by simp [originFields]), packed_cons _ _ _ 16 (by omega) (by simp [originFields]),
    packed_cons _ _ _ 8 (by omega) (by simp), ← put_eq_packed, ← origins_word, BitVec.or_assoc]

/-- The records of a segment's report (R146). -/
theorem actReports_segmentReport (g : Fin 8) (o : Origins) (window release : Word) (old new : Segment) :
    actReports release (segmentReport g o window old.conditions new) = segmentReports g o window release old new := by
  unfold segmentReport segmentReports
  dsimp only
  split
  · rfl
  · rw [segmentCondition_body]
    generalize new.lastDifference = difference
    cases difference with
    | none => rfl
    | some d => cases d <;> rfl

/-- The records of a point's report (R118). -/
theorem actReports_reportPoint {j : Job} {s v : State} (hb : j.before = conditionsOf s) (p : Fin 16) (release : Word) :
    let old := s.engine.points.get p
    let new := v.engine.points.get p
    actReports release (reportPoint j v p) =
      pointReports p (changeOrigins j (old.conditions, old.hold) (new.conditions, new.hold)) v.engine.windowNumber release
        old new := by
  intro old new
  unfold reportPoint pointReports
  rw [hb, conditionsOf_get]
  by_cases hc : old.conditions = new.conditions ∧ old.hold = new.hold
  · rw [if_pos hc]
    dsimp only
    rw [if_pos (Prod.ext hc.1 hc.2)]
    rfl
  · rw [if_neg hc]
    dsimp only
    rw [if_neg fun h => hc (Prod.mk.inj h), pointCondition_body]
    rfl

end Sys2Proof.Machine.MeasurementPoints
end

section
/-! SUPPORT. What a point or segment command does and reports, by its acts (R118, R128, R129, R146, R148, R185). -/
namespace Sys2Proof.Machine.MeasurementPoints
open Sys2Proof.Machine.SampleFrames Sys2Proof.Machine.Classification

/-- What a command in hand reports, by the acts carried out: `e` is its effect on `s`. -/
structure CommandReports (slot : Fin 8) (word : Word) (acts done left : List Act) (s e t : State) : Prop where
  split : acts = done ++ left
  stops : left = [] ∨ ∃ more, left = .await :: more
  ends : t.engine.job = none → left = []
  reports : ReportsFrom e t
  status : ∀ n, actPublications acts ≤ n →
    StatusFollows slot word (actReports (releaseAt s.engine.windowNumber s) acts) n s t
  reported : Reported (actReports (releaseAt s.engine.windowNumber s) done) s t
  asked : ∀ r, .publish r ∈ done → Asked r t
  raised : ∀ c, .cause c ∈ done → ∀ i, (c.mask &&& s.inEffect.causeEnable).getLsbD i = true → t.irq.getLsbD i = true
  quiet : (∀ a ∈ done, isPublication a = true) → t.irq = s.irq

/-- A command whose effect leaves the Publisher, the settings and the window reports by its acts. -/
theorem command_reports {slot : Fin 8} {word : Word} {acts : List Act} {stages : List Stage} {s e : State} {j : Job}
    (ho : j.offer = none) (hpub : e.pub = s.pub) (hirq : e.irq = s.irq) (hin : e.inEffect = s.inEffect)
    (hrelease : releaseWord e = releaseWord s) (hr : ∀ a ∈ acts, isReport a = true)
    (hend : ∀ v, v.engine = (setJob (some j) e).engine → runStages stages v = runStages [.answer slot word] v) :
    ∃ done left, CommandReports slot word acts done left s e (runJob acts stages (setJob (some j) e)) := by
  obtain ⟨done, left, v, hsplit, hstops, hacted, hended, hnone, hplaces⟩ :=
    runJob_command (slot := slot) (word := word) (s := setJob (some j) e) rfl ho hr hend
  generalize runJob acts stages (setJob (some j) e) = t at *
  have hword : releaseWord (setJob (some j) e) = releaseAt s.engine.windowNumber s :=
    hrelease.trans (releaseWord_eq s)
  have hreported := Ended.reported hacted.reported (inEffect_of_reports hacted.reports) hended
  have hraised := hacted.raised
  have hquiet := hacted.quiet
  rw [hword] at hreported hplaces
  simp only [Reported, PlacesFor, setJob_pub, setJob_inEffect, setJob_irq, hpub, hin, hirq] at hreported hplaces hraised hquiet
  exact ⟨done, left, {
    split := hsplit
    stops := hstops
    ends := fun hn => (hnone hn).1
    reports := ((setJob_reports _ e).trans hacted.reports).trans hended.reports
    status := fun n hn => ⟨fun h => (hnone h).2, fun hp => hplaces (placesFor_mono hp hn)⟩
    reported := hreported
    asked := fun r h => hended.stands.asked r (hacted.asked r h)
    raised := fun c h i hi => hended.stands.irq i (hraised c h i hi)
    quiet := fun h => hended.irq.trans (hquiet h) }⟩

/-- With no wait among its acts a command has carried them all out. -/
theorem CommandReports.all {slot : Fin 8} {word : Word} {acts done left : List Act} {s e t : State}
    (h : CommandReports slot word acts done left s e t) (hn : .await ∉ acts) : done = acts := by
  obtain rfl | ⟨more, rfl⟩ := h.stops
  · exact (h.split.trans (List.append_nil _)).symm
  · exact absurd (h.split ▸ List.mem_append_right _ List.mem_cons_self) hn

/-- All its records are reserved when none is asked for behind the first act. -/
theorem CommandReports.reportedAll {slot : Fin 8} {word : Word} {acts done left : List Act} {s e t : State}
    (h : CommandReports slot word acts done left s e t)
    (hacts : acts = [] ∨ ∃ kind body rest, acts = .digest kind body :: rest ∧ ∀ release, actReports release rest = []) :
    Reported (actReports (releaseAt s.engine.windowNumber s) acts) s t := by
  have hreported := h.reported
  obtain rfl | ⟨kind, body, rest, rfl, hrest⟩ := hacts
  · rwa [(List.append_eq_nil_iff.mp h.split.symm).1] at hreported
  · rwa [actReports_done h.split (by simp) h.stops (hrest _)] at hreported

/-! ### The command taken -/

/-- The engine's job with a command just taken. -/
def commandJob (s : State) : Job := ⟨true, conditionsOf s, none, none, [], [], none⟩

/-- The command has left the work queue. -/
def commandTaken (rest : List WorkItem) (s : State) : State :=
  { s with engine := { s.engine with workQueue := rest } }

/-- A command in front whose owner accepts it, processing being on: its effect `e`, its acts and what ends it (R183). -/
theorem takeCommand_accepted {kind : Nat} {owner : CommandItem → State → OwnerResult} {c : CommandItem}
    {rest : List WorkItem} {s e : State} {acts : List Act} (h : CommandInFront c rest s) (hk : commandKind c.word = kind)
    (he : s.inEffect.enable = true)
    (ho : owner c (setJob (some (commandJob s)) (commandTaken rest s)) = ⟨setJob (some (commandJob s)) e, acts, .none⟩) :
    takeCommand kind owner s =
      runJob acts [.report, .answer c.slot (statusWord c.word .none 0 0)] (setJob (some (commandJob s)) e) := by
  have hfront : frontCommand s = some (c, rest) := by simp only [frontCommand, h.1, h.2]
  have hon : disabledNow (commandKind c.word) (setJob (some (commandJob s)) (commandTaken rest s)) = false := by
    show (!s.inEffect.enable && _) = false
    rw [he]
    rfl
  have hbegin : beginJob rest true none none s = setJob (some (commandJob s)) (commandTaken rest s) := rfl
  simp only [takeCommand, hfront, hk, if_true, carryOut, hbegin]
  rw [← hk, hon]
  simp only [Bool.false_eq_true, if_false, ho]
  rfl

/-- No point changed over a command: its report stage asks for nothing. -/
theorem report_unchanged {slot : Fin 8} {word : Word} {s v : State} (hv : v.engine.job = some (commandJob s))
    (hp : conditionsOf v = conditionsOf s) :
    runStages [.report, .answer slot word] v = runStages [.answer slot word] v := by
  have henter : enterStage .report v = some (v, reportPoints (commandJob s) v) := by
    simp only [enterStage, hv]
  rw [runStages_enter henter, reportPoints_unchanged (show (commandJob s).before = _ from hp.symm)]
  rfl

theorem conditionsOf_setPoint {p : Fin 16} {new : PointRecord} {s : State}
    (hc : new.conditions = (s.engine.points.get p).conditions) (hh : new.hold = (s.engine.points.get p).hold) :
    conditionsOf (setPoint p new s) = conditionsOf s := by
  refine Vector.ext fun i hi => ?_
  have key : (conditionsOf (setPoint p new s)).get ⟨i, hi⟩ = (conditionsOf s).get ⟨i, hi⟩ := by
    rw [conditionsOf_get, conditionsOf_get, setPoint_points, upd_get]
    split
    next h => rw [h, hc, hh]
    next => rfl
  exact key

/-! ### CLEAR TOTALS (R128) -/

section Target

variable {c : CommandItem} {rest : List WorkItem} {s : State}

/-- The record that CLEAR TOTALS leaves of a point. -/
def clearedPoint (p : Fin 16) (s : State) : PointRecord :=
  let old := s.engine.points.get p
  { clearTotalsRecord old with window := if s.pointEnabled p then
      { old.window with volumeComplete := false, solidsComplete := false } else old.window }

theorem ownerClearTotals_point {p : Fin 16} (hp : commandTarget c.word = p.val)
    (hrun : provingInProgress s = false ∨ (p ≠ s.proving.test ∧ p ≠ s.proving.reference)) :
    ownerClearTotals c (setJob (some (commandJob s)) (commandTaken rest s)) =
      ⟨setJob (some (commandJob s)) (setPoint p (clearedPoint p s) (commandTaken rest s)), [.publish (pointRecordNo p)],
        .none⟩ := by
  let taken := setJob (some (commandJob s)) (commandTaken rest s)
  have hfin : Fin.ofNat 16 (commandTarget c.word) = p := by rw [hp, Fin.ofNat_val_eq_self]
  have hfree : (provingInProgress taken && isProvingPoint taken p) = false := by
    show (provingInProgress s && isProvingPoint s p) = false
    obtain h | ⟨ht, hr⟩ := hrun
    · rw [h, Bool.false_and]
    · have hpoint : isProvingPoint s p = false := by simp [isProvingPoint, ht, hr]
      rw [hpoint, Bool.and_false]
  have hmark : mark (.point p) (modifyPoint p clearTotalsRecord taken) =
      setJob (some (commandJob s)) (setPoint p (clearedPoint p s) (commandTaken rest s)) := by
    show (if s.pointEnabled p = true then spoilPoint p (modifyPoint p clearTotalsRecord taken) else _) = _
    by_cases h : s.pointEnabled p = true
    · simp only [h, clearedPoint, spoilPoint, modifyPoint, setPoint, upd_get, if_true, upd_upd]
      rfl
    · simp only [h, clearedPoint]
      rfl
  have hrange : ¬16 ≤ commandTarget c.word := by omega
  unfold ownerClearTotals
  rw [if_neg hrange, hfin]
  dsimp only
  rw [if_neg (Bool.eq_false_iff.mp hfree), hmark]

/-! ### ACK CONDITIONS (R129, R148) -/

theorem ownerAckConditions_point {p : Fin 16} (hp : commandTarget c.word = p.val) (hs : commandOnSegment c.word = false) :
    ownerAckConditions c (setJob (some (commandJob s)) (commandTaken rest s)) =
      ⟨setJob (some (commandJob s)) (setPoint p (ackPointRecord (c.arg 0) (s.engine.points.get p)) (commandTaken rest s)),
        [], .none⟩ := by
  have hfin : Fin.ofNat 16 (commandTarget c.word) = p := by rw [hp, Fin.ofNat_val_eq_self]
  have hrange : ¬16 ≤ commandTarget c.word := by omega
  unfold ownerAckConditions
  dsimp only
  rw [hs, if_neg Bool.false_ne_true, if_neg hrange, hfin]
  rfl

theorem ownerAckConditions_segment {g : Fin 8} (hg : commandTarget c.word = g.val) (hs : commandOnSegment c.word = true) :
    let old := s.balance.segments.get g
    let new := ackSegmentRecord (c.arg 0) old
    ownerAckConditions c (setJob (some (commandJob s)) (commandTaken rest s)) =
      ⟨setJob (some (commandJob s)) (setSegment g new (commandTaken rest s)),
        segmentReport g { Origins.none with command := true } s.engine.windowNumber old.conditions new, .none⟩ := by
  have hfin : Fin.ofNat 8 (commandTarget c.word) = g := by rw [hg, Fin.ofNat_val_eq_self]
  have hrange : ¬8 ≤ commandTarget c.word := by omega
  unfold ownerAckConditions
  dsimp only
  rw [hs, if_pos rfl, if_neg hrange, hfin]
  rfl

end Target

/-- The conditions that an acknowledgement names are removed at once. -/
theorem ackSegmentRecord_eq (named : Word) (x : Segment) :
    let loss := named.getLsbD 0
    let gain := named.getLsbD 1
    ackSegmentRecord named x = { x with
      conditions := x.conditions &&& ~~~((if loss then segLoss else 0) ||| (if gain then segGain else 0))
      loss := if loss then 0 else x.loss
      gain := if gain then 0 else x.gain
      clear := if loss || gain then 0 else x.clear } := by
  have neither : ∀ c : BitVec 3, c &&& ~~~(0 ||| 0) = c := by decide
  have lossAlone : ∀ c : BitVec 3, c &&& ~~~(segLoss ||| 0) = c &&& ~~~segLoss := by decide
  have gainAlone : ∀ c : BitVec 3, c &&& ~~~(0 ||| segGain) = c &&& ~~~segGain := by decide
  have both : ∀ c : BitVec 3, c &&& ~~~(segLoss ||| segGain) = c &&& ~~~segLoss &&& ~~~segGain := by decide
  unfold ackSegmentRecord bit
  cases named.getLsbD 0 with
  | false =>
    cases named.getLsbD 1 with
    | false => simp only [neither, Bool.false_eq_true, if_false, Bool.or_false]
    | true => simp only [gainAlone, Bool.false_eq_true, if_false, if_true, Bool.false_or]
  | true =>
    cases named.getLsbD 1 with
    | false => simp only [lossAlone, Bool.false_eq_true, if_false, if_true, Bool.true_or]
    | true => simp only [both, if_true, Bool.true_or]

/-- A point's report asks for its record first, and for one publication at most. -/
theorem reportPoint_acts (j : Job) (v : State) (p : Fin 16) :
    (reportPoint j v p = [] ∨ ∃ kind body rest, reportPoint j v p = .digest kind body :: rest
        ∧ ∀ release, actReports release rest = [])
      ∧ actPublications (reportPoint j v p) ≤ 1 := by
  unfold reportPoint
  dsimp only
  split
  · exact ⟨.inl rfl, Nat.zero_le 1⟩
  · exact ⟨.inr ⟨_, _, _, rfl, fun _ => rfl⟩, Nat.le_refl 1⟩

/-- What is asked for once a point's conditions or HOLD changed (R118). -/
theorem reportPoint_asks {j : Job} {s v : State} {p : Fin 16} (hb : j.before = conditionsOf s)
    (h : (s.engine.points.get p).conditions ≠ (v.engine.points.get p).conditions
      ∨ (s.engine.points.get p).hold ≠ (v.engine.points.get p).hold) :
    .cause .condition ∈ reportPoint j v p ∧ .publish (pointRecordNo p) ∈ reportPoint j v p := by
  unfold reportPoint
  rw [hb, conditionsOf_get]
  dsimp only
  rw [if_neg fun he => ?_]
  · simp
  · obtain ⟨hc, hh⟩ := Prod.mk.inj he
    exact h.elim (· hc) (· hh)

/-- The same of a segment (R146). -/
theorem segmentReport_acts (g : Fin 8) (o : Origins) (window : Word) (before : BitVec 3) (after : Segment) :
    (segmentReport g o window before after = [] ∨ ∃ kind body rest,
        segmentReport g o window before after = .digest kind body :: rest ∧ ∀ release, actReports release rest = [])
      ∧ actPublications (segmentReport g o window before after) ≤ 1 := by
  unfold segmentReport
  split
  · exact ⟨.inl rfl, Nat.zero_le 1⟩
  · exact ⟨.inr ⟨_, _, _, rfl, fun _ => rfl⟩, Nat.le_refl 1⟩

/-- Acts that stop at a wait which stands last have been carried out but for it. -/
theorem done_of_last_await {acts done more : List Act} (h : acts ++ [.await] = done ++ .await :: more)
    (hn : .await ∉ acts) : done = acts := by
  induction acts generalizing done with
  | nil =>
    cases done with
    | nil => rfl
    | cons b d => cases d <;> cases (List.cons.inj h).2
  | cons a rest ih =>
    obtain ⟨ha, hrest⟩ := not_or.mp (mt List.mem_cons.mpr hn)
    cases done with
    | nil => exact absurd (List.cons.inj h).1.symm ha
    | cons b d =>
      obtain ⟨rfl, hd⟩ := List.cons.inj h
      rw [ih hd hrest]

/-- A segment's report asks for all before its one wait (R146). -/
theorem segmentReport_asks {g : Fin 8} {o : Origins} {window : Word} {before : BitVec 3} {after : Segment}
    {done left : List Act} (h : segmentReport g o window before after = done ++ left)
    (hleft : left = [] ∨ ∃ more, left = .await :: more) (hc : before ≠ after.conditions) :
    .cause .condition ∈ done ∧ .publish (segmentRecordNo g) ∈ done := by
  rw [segmentReport, if_neg hc] at h
  obtain rfl | ⟨more, rfl⟩ := hleft
  · rw [List.append_nil] at h
    simp [← h]
  · rw [done_of_last_await (acts := [.digest .condition (segmentConditionBody g o window before after), .cause .condition,
      .publish (segmentRecordNo g)]) h (by simp)]
    simp

/-- CONDITION is pending once it was set, if it is enabled. -/
theorem condition_pending {s t : State}
    (h : ∀ i, (Cause.condition.mask &&& s.inEffect.causeEnable).getLsbD i = true → t.irq.getLsbD i = true)
    (he : s.inEffect.causeEnable.getLsbD 1 = true) : t.irq.getLsbD 1 = true :=
  h 1 (by simp [Cause.mask, he])

end Sys2Proof.Machine.MeasurementPoints
end

section
/-! The statement about CLEAR TOTALS and ACK CONDITIONS. -/
namespace Sys2Proof.Machine.MeasurementPoints
open Sys2Proof.Machine.SampleFrames Sys2Proof.Machine.Classification

/-- CLEAR TOTALS asks for one publication and nothing else. -/
theorem clearTotals_reports {c : CommandItem} {rest : List WorkItem} {s : State} {p : Fin 16} (hf : CommandInFront c rest s)
    (he : s.inEffect.enable = true) (hk : commandKind c.word = 1) (ht : commandTarget c.word = p.val)
    (hrun : provingInProgress s = false ∨ (p ≠ s.proving.test ∧ p ≠ s.proving.reference)) :
    ∃ t left, exec .clearTotals s = .next t ∧ CommandReports c.slot (statusWord c.word .none 0 0)
      [.publish (pointRecordNo p)] [.publish (pointRecordNo p)] left s
      (setPoint p (clearedPoint p s) (commandTaken rest s)) t := by
  have hexec := takeCommand_accepted (owner := ownerClearTotals) hf hk he (ownerClearTotals_point ht hrun)
  obtain ⟨done, left, h⟩ := command_reports (slot := c.slot) (word := statusWord c.word .none 0 0)
    (acts := [.publish (pointRecordNo p)]) (s := s) (e := setPoint p (clearedPoint p s) (commandTaken rest s))
    (j := commandJob s) rfl rfl rfl rfl rfl (by simp [isReport]) (fun v hv => report_unchanged (by rw [hv]; rfl) (by
      have hp : conditionsOf v = conditionsOf (setPoint p (clearedPoint p s) (commandTaken rest s)) := by
        unfold conditionsOf
        rw [hv]
        rfl
      exact hp.trans (conditionsOf_setPoint (s := commandTaken rest s) rfl rfl)))
  rw [h.all (by simp)] at h
  exact ⟨_, left, congrArg Host.Outcome.next hexec, h⟩

/-- ACK CONDITIONS on a point reports that point alone. -/
theorem ackPoint_reports {c : CommandItem} {rest : List WorkItem} {s : State} {p : Fin 16} (hf : CommandInFront c rest s)
    (he : s.inEffect.enable = true) (hk : commandKind c.word = 2) (hs : commandOnSegment c.word = false)
    (ht : commandTarget c.word = p.val) :
    let e := setPoint p (ackPointRecord (c.arg 0) (s.engine.points.get p)) (commandTaken rest s)
    ∃ t done left, exec .ackConditions s = .next t ∧ CommandReports c.slot (statusWord c.word .none 0 0)
      (reportPoint (commandJob s) (setJob (some (commandJob s)) e) p) done left s e t := by
  intro e
  have hexec := takeCommand_accepted (owner := ownerAckConditions) hf hk he (ownerAckConditions_point ht hs)
  have hothers (q : Fin 16) (hq : q ≠ p) : e.engine.points.get q = s.engine.points.get q := by
    show (upd s.engine.points p _).get q = _
    rw [upd_get, if_neg hq]
  have henter : enterStage .report (setJob (some (commandJob s)) e) =
      some (setJob (some (commandJob s)) e, reportPoint (commandJob s) (setJob (some (commandJob s)) e) p) := by
    rw [← reportPoints_one (j := commandJob s) rfl hothers]
    rfl
  have hrun : runJob [] [.report, .answer c.slot (statusWord c.word .none 0 0)] (setJob (some (commandJob s)) e) = _ :=
    runStages_enter henter
  obtain ⟨done, left, h⟩ := command_reports (slot := c.slot) (word := statusWord c.word .none 0 0) (s := s) (e := e)
    (j := commandJob s) rfl rfl rfl rfl rfl (isReport_reportPoint (commandJob s) (setJob (some (commandJob s)) e) p)
    (fun _ _ => rfl)
  exact ⟨_, done, left, congrArg Host.Outcome.next (hexec.trans hrun), h⟩

/-- ACK CONDITIONS on a segment reports that segment alone. -/
theorem ackSegment_reports {c : CommandItem} {rest : List WorkItem} {s : State} {g : Fin 8} (hf : CommandInFront c rest s)
    (he : s.inEffect.enable = true) (hk : commandKind c.word = 2) (hs : commandOnSegment c.word = true)
    (ht : commandTarget c.word = g.val) :
    let old := s.balance.segments.get g
    let new := ackSegmentRecord (c.arg 0) old
    ∃ t done left, exec .ackConditions s = .next t ∧ CommandReports c.slot (statusWord c.word .none 0 0)
      (segmentReport g { Origins.none with command := true } s.engine.windowNumber old.conditions new) done left s
      (setSegment g new (commandTaken rest s)) t := by
  intro old new
  have hexec := takeCommand_accepted (owner := ownerAckConditions) hf hk he (ownerAckConditions_segment ht hs)
  obtain ⟨done, left, h⟩ := command_reports (slot := c.slot) (word := statusWord c.word .none 0 0) (s := s)
    (e := setSegment g new (commandTaken rest s)) (j := commandJob s) rfl rfl rfl rfl rfl
    (isReport_segmentReport g { Origins.none with command := true } s.engine.windowNumber old.conditions new)
    (fun v hv => report_unchanged (by rw [hv]; rfl) (by unfold conditionsOf; rw [hv]; rfl))
  exact ⟨_, done, left, congrArg Host.Outcome.next hexec, h⟩

/-- Settles O44: each owner's effect, and what the command's acts report. -/
theorem pointAndSegmentCommandsAct : Obligations.PointAndSegmentCommandsAct := by
  refine ⟨?clear, ?point, ?segment⟩
  case clear =>
    intro s c rest p hf he hk ht hrun old window new
    obtain ⟨t, left, hexec, h⟩ := clearTotals_reports hf he hk ht hrun
    exact ⟨t, hexec, h.reports, h.asked _ List.mem_cons_self, h.status 1 (Nat.le_refl 1),
      h.quiet (by simp [isPublication]), h.reported.1⟩
  case point =>
    intro s c rest p hf he hk hs ht old named new
    obtain ⟨t, done, left, hexec, h⟩ := ackPoint_reports hf he hk hs ht
    have hnew : ackPointRecord (c.arg 0) old = new := by
      have hbit : named.getLsbD 7 = (c.arg 0).getLsbD 7 := by
        simp only [named, BitVec.getLsbD_extractLsb']
        rfl
      simp only [ackPointRecord, new, hbit]
      rfl
    rw [hnew] at h
    let v := setJob (some (commandJob s)) (setPoint p new (commandTaken rest s))
    have hpoint : v.engine.points.get p = new := by
      show (upd s.engine.points p new).get p = new
      rw [upd_get, if_pos rfl]
    have hacts := actReports_reportPoint (j := commandJob s) (s := s) (v := v) rfl p (releaseAt s.engine.windowNumber s)
    obtain ⟨hfirst, hone⟩ := reportPoint_acts (commandJob s) v p
    have hstatus := h.status 1 hone
    have hreported := h.reportedAll hfirst
    rw [hacts, hpoint] at hstatus hreported
    refine ⟨t, hexec, h.reports, hstatus, ⟨hreported, fun hn hc => ?_⟩, fun hc hh => ?_⟩
    · obtain ⟨hcause, hpublish⟩ := reportPoint_asks (j := commandJob s) (s := s) (v := v) (p := p) rfl (by rwa [hpoint])
      have hall : done = reportPoint (commandJob s) v p := by rw [h.split, h.ends hn, List.append_nil]
      rw [← hall] at hcause hpublish
      exact ⟨h.asked _ hpublish, condition_pending (h.raised _ hcause)⟩
    · have hnone : reportPoint (commandJob s) v p = [] := by
        unfold reportPoint
        rw [hpoint]
        exact if_pos (by rw [show (commandJob s).before = conditionsOf s from rfl, conditionsOf_get, ← hc, ← hh])
      have hdone := (List.append_eq_nil_iff.mp (h.split.symm.trans hnone)).1
      have hring := h.reported.1
      rw [hdone] at hring
      exact ⟨hring, h.quiet (by simp [hdone])⟩
  case segment =>
    intro s c rest g hf he hk hs ht old loss gain new
    obtain ⟨t, done, left, hexec, h⟩ := ackSegment_reports hf he hk hs ht
    have hnew : ackSegmentRecord (c.arg 0) old = new := ackSegmentRecord_eq _ _
    rw [hnew] at h
    obtain ⟨hfirst, hone⟩ := segmentReport_acts g { Origins.none with command := true } s.engine.windowNumber
      old.conditions new
    have hstatus := h.status 1 hone
    have hreported := h.reportedAll hfirst
    rw [actReports_segmentReport] at hstatus hreported
    refine ⟨t, hexec, h.reports, hstatus, hreported, fun hc => ?_⟩
    obtain ⟨hcause, hpublish⟩ := segmentReport_asks h.split h.stops hc
    exact ⟨h.asked _ hpublish, condition_pending (h.raised _ hcause)⟩

end Sys2Proof.Machine.MeasurementPoints
end
